-- ==== Sys2Proof/Word.lean ====
section
/-! DEFINITION. The word types of the block: every wire quantity is one byte of 8 bits (00_scope.md R7) and a
host command is one 32-bit word (30_encoding.md R87). Bit 0 is the least significant bit (R8). -/

namespace Sys2Proof

/-- A byte of 8 bits (00_scope.md R7). -/
abbrev Byte := BitVec 8

/-- A host command word (30_encoding.md R87). -/
abbrev CmdWord := BitVec 32

end Sys2Proof
end

