-- ==== Sys2Proof/Config.lean ====
section
/-! DEFINITION. What is fixed for the machine: the constants of 00_scope.md R5, the types of the parameters of R6 with
the constraints the spec puts on them, and the free values of the buffers' reset contents. The parameters' default
values stand in Decode.lean. -/

namespace Sys2Proof

/-! ### Constants (00_scope.md R5) -/

/-- The delimiter that opens and closes every frame (R5). -/
@[reducible] def Config.delim : Byte := 0x7E#8

/-- The flag byte of a frame on a channel other than the broadcast channel (R5, R82). -/
@[reducible] def Config.flagNormal : Byte := 0xBF#8

/-- The flag byte of a frame on the broadcast channel (R5, R82). -/
@[reducible] def Config.flagBcast : Byte := 0xAF#8

/-- The broadcast channel (R5, R83). -/
@[reducible] def Config.chBcast : Byte := 0xFF#8

/-- The arbitration-only channel (R5, R83). -/
@[reducible] def Config.chArb : Byte := 0xFE#8

/-- The longest payload of a frame, in bytes (R5). -/
@[reducible] def Config.maxPayload : Nat := 250

/-- The shortest frame, both delimiters included (R5). -/
@[reducible] def Config.minFrame : Nat := 7

/-- What the length byte counts beside the payload (R5). -/
@[reducible] def Config.hdrOverhead : Nat := 5

/-- The CRC's polynomial, its x^8 term implicit (R5, 40_crc8.md R120). -/
@[reducible] def Config.crcPoly : Byte := 0x07#8

/-- The CRC's initial value (R5, R120). -/
@[reducible] def Config.crcInit : Byte := 0x02#8

/-- The CRC's final XOR (R5, R120). -/
@[reducible] def Config.crcXorOut : Byte := 0x02#8

/-- The status payload's length in bytes (R5). -/
@[reducible] def Config.statusLen : Nat := 31

/-- The number of pumps (R5). -/
@[reducible] def Config.numPumps : Nat := 6

/-- The number of lights (R5). -/
@[reducible] def Config.numLights : Nat := 2

/-- The number of aux outputs (R5). -/
@[reducible] def Config.numAux : Nat := 2

/-- The value at which the count of a candidate's bytes saturates (10_state.md R25, 41_frame_rx.md R151). -/
@[reducible] def Config.cntSat : Nat := 258

/-- The bytes of each internal buffer (20_memory.md R60). -/
@[reducible] def Config.rxBufBytes : Nat := 257

/-- See `Config.rxBufBytes`. -/
@[reducible] def Config.frmPayloadBytes : Nat := 250

/-- See `Config.rxBufBytes`. -/
@[reducible] def Config.stSnapBytes : Nat := 31

/-- See `Config.rxBufBytes`. -/
@[reducible] def Config.txPlBytes : Nat := 256

/-- See `Config.rxBufBytes`. -/
@[reducible] def Config.txFrameBytes : Nat := 257

/-! ### Names -/

/-- The receive source, the values of the parameter P_RX_SOURCE (00_scope.md R6, 41_frame_rx.md R140). -/
inductive RxSource where
  | scan
  | span
  deriving DecidableEq, Repr

/-- The scanner's states (10_state.md R24). The encoding 3 of a hardware build is never entered (I2) and has no
constructor. -/
inductive RxState where
  | hunt
  | gotStart
  | collect
  deriving DecidableEq, Repr

/-- The message variants (43_dispatch.md R200). -/
inductive Variant where
  | newClientClearToSend
  | channelAssignmentRequest
  | channelAssignmentResponse
  | channelAssignmentAcknowledgement
  | existingClientRequest
  | existingClientResponse
  | clientClearToSend
  | nothingToSend
  | toggleItem
  | statusUpdate
  | setTemperature
  | setTime
  | settingsRequest
  | filterCycles
  | informationResponse
  | preferencesResponse
  | configurationResponse
  | faultLogResponse
  deriving DecidableEq, Repr

/-- The settings sub-variants (43_dispatch.md R222). -/
inductive SubVariant where
  | generic
  | filterCycles
  | information
  | preferences
  | faultLog
  | configuration
  deriving DecidableEq, Repr

/-! ### Parameters (00_scope.md R6) -/

/-- What a variant pins: an optional fixed payload length and an optional fixed channel (43_dispatch.md R201). -/
structure Pins where
  len : Option Nat
  ch : Option Byte
  deriving DecidableEq, Repr

/-- One mapped code's entry of P_TYPE_MAP: `(variant, fixed_len, fixed_ch)` (R6). -/
structure TypeEntry where
  variant : Variant
  pins : Pins
  deriving DecidableEq, Repr

/-- P_TYPE_MAP as plain data: the mapped codes with their entries. A code that is not listed maps to `none`; of two
entries for one code the first counts. -/
abbrev TypeMap := List (Byte × TypeEntry)

/-- P_SUBCODE_MAP as plain data: the listed 3-byte codes with their sub-variants. A code that is not listed is the
generic request (43_dispatch.md R222). -/
abbrev SubcodeMap := List ((Byte × Byte × Byte) × SubVariant)

/-- The parameters that a step reads (00_scope.md R6). -/
structure Params where
  rxSource : RxSource
  typeMap : TypeMap
  subcodeMap : SubcodeMap
  deriving DecidableEq, Repr

/-- One item of P_CAP_FIELD: `(byte index, lsb, width)` (00_scope.md R6, 44_status_unpack.md R255). -/
structure CapPos where
  byte : Nat
  lsb : Nat
  width : Nat
  deriving DecidableEq, Repr

/-- P_CAP_FIELD: the positions of the seven capability items. It is OPEN (44_status_unpack.md R256): it has no
default, and every output that reads it takes it as an argument (log entry 4). -/
abbrev CapMap := Vector CapPos 7

/-! ### Free values

The contents of a buffer after reset are `any value`, one draw per byte at each reset (70_reset_and_hazards.md R310,
93_implementation_defined.md I1). A host can see two of them, and reads the same byte until a cycle writes it
(20_memory.md R66). Neither constant has a body, so a statement about them holds for every draw (log entry 6). -/

/-- Byte `i` of st_snap as the reset numbered `r` left it (I1); also what a host read at an index of 31 or more answers,
which 20_memory.md R60 leaves undefined (log entry 6). -/
opaque Config.stSnapAtReset (r i : Nat) : Byte

/-- Byte `i` of tx_pl as the reset numbered `r` left it (I1); also what a host read at an index of 256 or more answers,
which 20_memory.md R60 leaves undefined (log entry 6). -/
opaque Config.txPlAtReset (r i : Nat) : Byte

end Sys2Proof
end

