-- ==== Sys2Proof/Syntax.lean ====
section
/-! DEFINITION. The operations of the block, one constructor per row of spec/opcode_table.json. The block has no
instruction set (10_state.md R20, R21): a row is a host command word, a port transaction, or the type code of a good
frame, and a clock cycle runs the rows its inputs select (00_scope.md R13). -/

namespace Sys2Proof

/-- The rows of the opcode table. -/
inductive Instr where
  /-- `NOP` (30_encoding.md R91). -/
  | nop
  /-- `CRC_INIT` (40_crc8.md R123). -/
  | crcInit
  /-- `CRC_UPDATE b` (40_crc8.md R124). -/
  | crcUpdate (b : Byte)
  /-- `TX_WRITE i, b` (42_frame_tx.md R182). -/
  | txWrite (i b : Byte)
  /-- `TX_START ch, t, n` (42_frame_tx.md R184). -/
  | txStart (ch t n : Byte)
  /-- `CFG_WRITE cap, pumps` (30_encoding.md R88). -/
  | cfgWrite (cap : BitVec 7) (pumps : BitVec 6)
  /-- A word of op 0x6 or 0x7 (30_encoding.md R92); `low` is its bits 28:0. -/
  | illegalOp67 (low : BitVec 29)
  /-- A word of op 0x8 to 0xF (30_encoding.md R92); `low` is its bits 30:0. -/
  | illegalOp8F (low : BitVec 31)
  /-- `RX_SCAN(b)` in state HUNT (41_frame_rx.md R144); `l` is rx_last, ignored. -/
  | rxScanHunt (l : Bool) (b : Byte)
  /-- `RX_SCAN(0x7E)` in state GOT_START (41_frame_rx.md R145); `l` is rx_last, ignored. -/
  | rxScanResync (l : Bool)
  /-- `RX_SCAN(b)`, b not 0x7E, in state GOT_START (41_frame_rx.md R146); `l` is rx_last, ignored. -/
  | rxScanLength (l : Bool) (b : Byte)
  /-- `RX_SCAN(b)` in state COLLECT (41_frame_rx.md R147); `l` is rx_last, ignored. -/
  | rxScanCollect (l : Bool) (b : Byte)
  /-- `RX_SPAN(b, l)` (41_frame_rx.md R151); `l` ends the span. -/
  | rxSpan (l : Bool) (b : Byte)
  /-- A cycle with rx_valid = 0 (30_encoding.md R85); the other wires are ignored. -/
  | rxIdle (l : Bool) (b : Byte)
  /-- A cycle with tx_ready = 1 (42_frame_tx.md R186). -/
  | txPop
  /-- A cycle with rst = 1 (70_reset_and_hazards.md R310). -/
  | reset
  /-- Dispatch of a good frame as variant 0 (43_dispatch.md R204). Here and below `k` is what the type code's
  P_TYPE_MAP entry pins; the frame's own fields are in frm_ch, frm_plen and frm_payload (41_frame_rx.md R156). -/
  | newClientClearToSend (k : Pins)
  /-- Variant 1 (43_dispatch.md R205). -/
  | channelAssignmentRequest (k : Pins)
  /-- Variant 2 (43_dispatch.md R206). -/
  | channelAssignmentResponse (k : Pins)
  /-- Variant 3 (43_dispatch.md R207). -/
  | channelAssignmentAcknowledgement (k : Pins)
  /-- Variant 4 (43_dispatch.md R208). -/
  | existingClientRequest (k : Pins)
  /-- Variant 5 (43_dispatch.md R209). -/
  | existingClientResponse (k : Pins)
  /-- Variant 6 (43_dispatch.md R210). -/
  | clientClearToSend (k : Pins)
  /-- Variant 7 (43_dispatch.md R211). -/
  | nothingToSend (k : Pins)
  /-- Variant 8 (43_dispatch.md R212). -/
  | toggleItem (k : Pins)
  /-- Variant 9 (43_dispatch.md R213). -/
  | statusUpdate (k : Pins)
  /-- Variant 10 (43_dispatch.md R214). -/
  | setTemperature (k : Pins)
  /-- Variant 11 (43_dispatch.md R215). -/
  | setTime (k : Pins)
  /-- Variant 12 (43_dispatch.md R216). -/
  | settingsRequest (k : Pins)
  /-- Variant 13 (43_dispatch.md R217). -/
  | filterCycles (k : Pins)
  /-- Variant 14 (43_dispatch.md R218). -/
  | informationResponse (k : Pins)
  /-- Variant 15 (43_dispatch.md R219). -/
  | preferencesResponse (k : Pins)
  /-- Variant 16 (43_dispatch.md R220). -/
  | configurationResponse (k : Pins)
  /-- Variant 17 (43_dispatch.md R221). -/
  | faultLogResponse (k : Pins)
  /-- Dispatch of a good frame whose type code `t` P_TYPE_MAP leaves unmapped (43_dispatch.md R203). -/
  | unknownType (t : Byte)
  deriving DecidableEq, Repr

end Sys2Proof
end

