-- ==== Sys2Proof/WellFormed.lean ====
section
/-! DEFINITION. The checks an operation of the table must meet, and the constraints on the parameters. -/

namespace Sys2Proof

/-- The checks that 43_dispatch.md R202 (items 1 to 4) puts on what a variant pins. -/
def Pins.wfFor (k : Pins) : Variant → Bool
  | .statusUpdate => k.len == some Config.statusLen && k.ch == some Config.chBcast
  | .existingClientResponse => k.len == some 3
  | .settingsRequest => k.len == some 3
  | .newClientClearToSend => k.ch == some Config.chArb
  | .channelAssignmentRequest => k.ch == some Config.chArb
  | .channelAssignmentResponse => k.ch == some Config.chArb
  | .channelAssignmentAcknowledgement => true
  | .existingClientRequest => true
  | .clientClearToSend => true
  | .nothingToSend => true
  | .toggleItem => true
  | .setTemperature => true
  | .setTime => true
  | .filterCycles => true
  | .informationResponse => true
  | .preferencesResponse => true
  | .configurationResponse => true
  | .faultLogResponse => true

/-- Well-formed operations: a length byte is never the delimiter (41_frame_rx.md R145, R146), and a variant pins
what 43_dispatch.md R202 says it pins. Every other field admits every value of its width (30_encoding.md R89). -/
def Instr.wf : Instr → Bool
  | .nop => true
  | .crcInit => true
  | .crcUpdate _ => true
  | .txWrite _ _ => true
  | .txStart _ _ _ => true
  | .cfgWrite _ _ => true
  | .illegalOp67 _ => true
  | .illegalOp8F _ => true
  | .rxScanHunt _ _ => true
  | .rxScanResync _ => true
  | .rxScanLength _ b => b != Config.delim
  | .rxScanCollect _ _ => true
  | .rxSpan _ _ => true
  | .rxIdle _ _ => true
  | .txPop => true
  | .reset => true
  | .newClientClearToSend k => k.wfFor .newClientClearToSend
  | .channelAssignmentRequest k => k.wfFor .channelAssignmentRequest
  | .channelAssignmentResponse k => k.wfFor .channelAssignmentResponse
  | .channelAssignmentAcknowledgement k => k.wfFor .channelAssignmentAcknowledgement
  | .existingClientRequest k => k.wfFor .existingClientRequest
  | .existingClientResponse k => k.wfFor .existingClientResponse
  | .clientClearToSend k => k.wfFor .clientClearToSend
  | .nothingToSend k => k.wfFor .nothingToSend
  | .toggleItem k => k.wfFor .toggleItem
  | .statusUpdate k => k.wfFor .statusUpdate
  | .setTemperature k => k.wfFor .setTemperature
  | .setTime k => k.wfFor .setTime
  | .settingsRequest k => k.wfFor .settingsRequest
  | .filterCycles k => k.wfFor .filterCycles
  | .informationResponse k => k.wfFor .informationResponse
  | .preferencesResponse k => k.wfFor .preferencesResponse
  | .configurationResponse k => k.wfFor .configurationResponse
  | .faultLogResponse k => k.wfFor .faultLogResponse
  | .unknownType _ => true

/-- The entry a code maps to, or `none` (00_scope.md R6, 43_dispatch.md R201). -/
def TypeMap.entry (m : TypeMap) (t : Byte) : Option TypeEntry := List.lookup t m

/-- The constraints every P_TYPE_MAP must satisfy (43_dispatch.md R202). Item 6 holds by the type of
`TypeEntry.variant`. -/
structure TypeMap.Admissible (m : TypeMap) : Prop where
  /-- Items 1 to 4: every entry pins what its variant must pin. -/
  pinned : ∀ t e, m.entry t = some e → e.pins.wfFor e.variant = true
  /-- Item 1: exactly one code maps to `StatusUpdate`. -/
  oneStatus : ∃ t, (∃ e, m.entry t = some e ∧ e.variant = .statusUpdate) ∧
    ∀ u e, m.entry u = some e → e.variant = .statusUpdate → u = t
  /-- Item 5: code 0x24 maps to `InformationResponse`. -/
  information : ∃ e, m.entry 0x24#8 = some e ∧ e.variant = .informationResponse

/-- The bits of a snapshot byte that a capability item takes. -/
def CapPos.takes (p : CapPos) (i k : Nat) : Prop := p.byte = i ∧ p.lsb ≤ k ∧ k < p.lsb + p.width

/-- The constraints every P_CAP_FIELD must satisfy (44_status_unpack.md R256). -/
structure CapMap.Admissible (m : CapMap) : Prop where
  /-- Item 1. -/
  inBytes : ∀ j : Fin 7, (m.get j).byte = 13 ∨ (m.get j).byte = 14 ∨ (m.get j).byte = 18
  /-- Item 2. -/
  inByte : ∀ j : Fin 7, 1 ≤ (m.get j).width ∧ (m.get j).lsb + (m.get j).width ≤ 8
  /-- Item 3: no two items take the same bit. -/
  disjoint : ∀ j j' : Fin 7, ∀ i k, (m.get j).takes i k → (m.get j').takes i k → j = j'

end Sys2Proof
end

