-- ==== Sys2Proof/Decode.lean ====
section
/-! DEFINITION. Decoding of the five formats of spec/opcode_table.json (30_encoding.md R85 to R94, 43_dispatch.md R201
to R203), total, rejecting by name; and after it the encoder, written from the same tables. -/

namespace Sys2Proof

/-! ### The parameters' defaults -/

/-- The default P_TYPE_MAP (43_dispatch.md R201; the MSGTYPE8 rows of opcode_table.json). -/
def defaultTypeMap : TypeMap :=
  [ (0x00#8, ⟨.newClientClearToSend, none, some 0xFE#8⟩),
    (0x01#8, ⟨.channelAssignmentRequest, none, some 0xFE#8⟩),
    (0x02#8, ⟨.channelAssignmentResponse, none, some 0xFE#8⟩),
    (0x03#8, ⟨.channelAssignmentAcknowledgement, none, none⟩),
    (0x04#8, ⟨.existingClientRequest, none, none⟩),
    (0x05#8, ⟨.existingClientResponse, some 3, none⟩),
    (0x06#8, ⟨.clientClearToSend, none, none⟩),
    (0x07#8, ⟨.nothingToSend, none, none⟩),
    (0x11#8, ⟨.toggleItem, none, none⟩),
    (0x13#8, ⟨.statusUpdate, some 31, some 0xFF#8⟩),
    (0x20#8, ⟨.setTemperature, none, none⟩),
    (0x21#8, ⟨.setTime, none, none⟩),
    (0x22#8, ⟨.settingsRequest, some 3, none⟩),
    (0x23#8, ⟨.filterCycles, none, none⟩),
    (0x24#8, ⟨.informationResponse, none, none⟩),
    (0x26#8, ⟨.preferencesResponse, none, none⟩),
    (0x2E#8, ⟨.configurationResponse, none, none⟩),
    (0x28#8, ⟨.faultLogResponse, none, none⟩) ]

/-- The default P_SUBCODE_MAP (43_dispatch.md R222). -/
def defaultSubcodeMap : SubcodeMap :=
  [ ((0x01#8, 0x00#8, 0x00#8), .filterCycles),
    ((0x02#8, 0x00#8, 0x00#8), .information),
    ((0x08#8, 0x00#8, 0x00#8), .preferences),
    ((0x20#8, 0xFF#8, 0x00#8), .faultLog),
    ((0x00#8, 0x00#8, 0x01#8), .configuration) ]

/-- The parameters' defaults (00_scope.md R6): SCAN and the two maps above. -/
def defaultParams : Params := ⟨.scan, defaultTypeMap, defaultSubcodeMap⟩

/-! ### Words and what selects a row -/

/-- A word of one of the table's five formats. -/
inductive PortWord where
  /-- CMD32: a host command word (30_encoding.md R87). -/
  | cmd32 (w : CmdWord)
  /-- RXPORT: rx_valid, rx_last, rx_data[7:0], from bit 9 down (30_encoding.md R85). -/
  | rxPort (w : BitVec 10)
  /-- TXPORT: tx_ready (30_encoding.md R86). -/
  | txPort (w : BitVec 1)
  /-- RSTPORT: rst (70_reset_and_hazards.md R310). -/
  | rstPort (w : BitVec 1)
  /-- MSGTYPE8: the type code of a good frame (30_encoding.md R93). -/
  | msgType8 (t : Byte)
  deriving DecidableEq, Repr

/-- What, beside a word, selects its row: P_RX_SOURCE and rx_state for the receive port (the rows' notes), P_TYPE_MAP
for a type code (30_encoding.md R93). -/
structure DecodeCtx where
  rxSource : RxSource
  rxState : RxState
  typeMap : TypeMap
  deriving DecidableEq, Repr

/-- Why a word is no row of the table. -/
inductive DecodeReject where
  /-- A command of op 0x0 to 0x5 with a reserved bit that is 1: illegal by 30_encoding.md R92, without a row
  (DEDUCED, log entry 10). -/
  | reservedBit
  /-- A port that asks for nothing: tx_ready = 0 (R86) or rst = 0 (R84). -/
  | noTransaction
  deriving DecidableEq, Repr

/-! ### Decoding -/

/-- The operation `i` where the reserved bits are 0, otherwise a rejection (30_encoding.md R90). -/
def unlessReserved (clear : Bool) (i : Instr) : Except DecodeReject Instr :=
  if clear then .ok i else .error .reservedBit

/-- The host command decoder (30_encoding.md R87, R89, R90). -/
def decodeCommand (w : CmdWord) : Except DecodeReject Instr :=
  match (w.extractLsb' 28 4).toNat with
  | 0 => unlessReserved (w.extractLsb' 0 28 == 0#28) .nop
  | 1 => unlessReserved (w.extractLsb' 0 28 == 0#28) .crcInit
  | 2 => unlessReserved (w.extractLsb' 8 20 == 0#20) (.crcUpdate (w.extractLsb' 0 8))
  | 3 => unlessReserved (w.extractLsb' 16 12 == 0#12) (.txWrite (w.extractLsb' 8 8) (w.extractLsb' 0 8))
  | 4 => unlessReserved (w.extractLsb' 24 4 == 0#4)
      (.txStart (w.extractLsb' 16 8) (w.extractLsb' 8 8) (w.extractLsb' 0 8))
  | 5 => unlessReserved (w.extractLsb' 15 13 == 0#13 && w.extractLsb' 6 2 == 0#2)
      (.cfgWrite (w.extractLsb' 8 7) (w.extractLsb' 0 6))
  | 6 => .ok (.illegalOp67 (w.extractLsb' 0 29))
  | 7 => .ok (.illegalOp67 (w.extractLsb' 0 29))
  | _ => .ok (.illegalOp8F (w.extractLsb' 0 31))

/-- A received byte's row in SCAN mode (41_frame_rx.md R144 to R147). -/
def decodeScan (st : RxState) (l : Bool) (b : Byte) : Instr :=
  match st with
  | .hunt => .rxScanHunt l b
  | .gotStart => if b = Config.delim then .rxScanResync l else .rxScanLength l b
  | .collect => .rxScanCollect l b

/-- The receive port's row (30_encoding.md R85, 41_frame_rx.md R140). -/
def decodeRx (src : RxSource) (st : RxState) (w : BitVec 10) : Instr :=
  let l := w.getLsbD 8
  let b := w.extractLsb' 0 8
  if w.getLsbD 9 then
    match src with
    | .scan => decodeScan st l b
    | .span => .rxSpan l b
  else .rxIdle l b

/-- The operation that dispatches a frame as the variant `v` with the pins `k` (43_dispatch.md R204 to R221). -/
def Variant.instr (v : Variant) (k : Pins) : Instr :=
  match v with
  | .newClientClearToSend => .newClientClearToSend k
  | .channelAssignmentRequest => .channelAssignmentRequest k
  | .channelAssignmentResponse => .channelAssignmentResponse k
  | .channelAssignmentAcknowledgement => .channelAssignmentAcknowledgement k
  | .existingClientRequest => .existingClientRequest k
  | .existingClientResponse => .existingClientResponse k
  | .clientClearToSend => .clientClearToSend k
  | .nothingToSend => .nothingToSend k
  | .toggleItem => .toggleItem k
  | .statusUpdate => .statusUpdate k
  | .setTemperature => .setTemperature k
  | .setTime => .setTime k
  | .settingsRequest => .settingsRequest k
  | .filterCycles => .filterCycles k
  | .informationResponse => .informationResponse k
  | .preferencesResponse => .preferencesResponse k
  | .configurationResponse => .configurationResponse k
  | .faultLogResponse => .faultLogResponse k

/-- The type code's row: the variant P_TYPE_MAP gives it, or UNKNOWN_TYPE (30_encoding.md R93, 43_dispatch.md
R203). -/
def decodeType (m : TypeMap) (t : Byte) : Instr :=
  match m.entry t with
  | some e => e.variant.instr e.pins
  | none => .unknownType t

/-- The decoder of all five formats, total on every word. -/
def decode (c : DecodeCtx) : PortWord → Except DecodeReject Instr
  | .cmd32 w => decodeCommand w
  | .rxPort w => .ok (decodeRx c.rxSource c.rxState w)
  | .txPort w => if w = 1#1 then .ok .txPop else .error .noTransaction
  | .rstPort w => if w = 1#1 then .ok .reset else .error .noTransaction
  | .msgType8 t => .ok (decodeType c.typeMap t)

/-- The row that a word of the table selects in the reset state's context, `w` numbered as the table numbers it:
32 bits are a command word, 8 bits a type code, 16 bits (10 in whole bytes) a receive-port word (log entry 3). -/
def decodeTableWord (nbits w : Nat) : Option Instr :=
  let c : DecodeCtx := ⟨.scan, .hunt, defaultTypeMap⟩
  if nbits = 32 then (decode c (.cmd32 (BitVec.ofNat 32 w))).toOption
  else if nbits = 8 then (decode c (.msgType8 (BitVec.ofNat 8 w))).toOption
  else if nbits = 16 then (decode c (.rxPort (BitVec.ofNat 10 w))).toOption
  else none

/-! ### Encoding -/

/-- Every byte, in rising order. -/
def allBytes : List Byte := (List.range 256).map (BitVec.ofNat 8)

/-- The first code that P_TYPE_MAP maps to the entry `e`. -/
def TypeMap.codeOf (m : TypeMap) (e : TypeEntry) : Option Byte :=
  allBytes.find? (fun t => m.entry t == some e)

/-- The word of a variant: a type code that P_TYPE_MAP maps to it with these pins, if there is one. -/
def encodeVariant (m : TypeMap) (v : Variant) (k : Pins) : Option PortWord :=
  (m.codeOf ⟨v, k⟩).map .msgType8

/-- rx_valid, rx_last, rx_data, from bit 9 down (30_encoding.md R85). -/
def rxWord (valid last : Bool) (data : Byte) : BitVec 10 :=
  BitVec.ofBool valid ++ BitVec.ofBool last ++ data

/-- The word of an operation (the encoding column of 30_encoding.md R87; R85, R86, R93). `none` only for a variant
that the map gives no code with these pins. -/
def encode (m : TypeMap) : Instr → Option PortWord
  | .nop => some (.cmd32 (0b0000#4 ++ 0#28))
  | .crcInit => some (.cmd32 (0b0001#4 ++ 0#28))
  | .crcUpdate b => some (.cmd32 (0b0010#4 ++ 0#20 ++ b))
  | .txWrite i b => some (.cmd32 (0b0011#4 ++ 0#12 ++ i ++ b))
  | .txStart ch t n => some (.cmd32 (0b0100#4 ++ 0#4 ++ ch ++ t ++ n))
  | .cfgWrite cap pumps => some (.cmd32 (0b0101#4 ++ 0#13 ++ cap ++ 0#2 ++ pumps))
  | .illegalOp67 low => some (.cmd32 (0b011#3 ++ low))
  | .illegalOp8F low => some (.cmd32 (0b1#1 ++ low))
  | .rxScanHunt l b => some (.rxPort (rxWord true l b))
  | .rxScanResync l => some (.rxPort (rxWord true l Config.delim))
  | .rxScanLength l b => some (.rxPort (rxWord true l b))
  | .rxScanCollect l b => some (.rxPort (rxWord true l b))
  | .rxSpan l b => some (.rxPort (rxWord true l b))
  | .rxIdle l b => some (.rxPort (rxWord false l b))
  | .txPop => some (.txPort 1#1)
  | .reset => some (.rstPort 1#1)
  | .newClientClearToSend k => encodeVariant m .newClientClearToSend k
  | .channelAssignmentRequest k => encodeVariant m .channelAssignmentRequest k
  | .channelAssignmentResponse k => encodeVariant m .channelAssignmentResponse k
  | .channelAssignmentAcknowledgement k => encodeVariant m .channelAssignmentAcknowledgement k
  | .existingClientRequest k => encodeVariant m .existingClientRequest k
  | .existingClientResponse k => encodeVariant m .existingClientResponse k
  | .clientClearToSend k => encodeVariant m .clientClearToSend k
  | .nothingToSend k => encodeVariant m .nothingToSend k
  | .toggleItem k => encodeVariant m .toggleItem k
  | .statusUpdate k => encodeVariant m .statusUpdate k
  | .setTemperature k => encodeVariant m .setTemperature k
  | .setTime k => encodeVariant m .setTime k
  | .settingsRequest k => encodeVariant m .settingsRequest k
  | .filterCycles k => encodeVariant m .filterCycles k
  | .informationResponse k => encodeVariant m .informationResponse k
  | .preferencesResponse k => encodeVariant m .preferencesResponse k
  | .configurationResponse k => encodeVariant m .configurationResponse k
  | .faultLogResponse k => encodeVariant m .faultLogResponse k
  | .unknownType t => some (.msgType8 t)

/-- What selects an operation's row beside its word (the rows' notes in opcode_table.json): the receive source and the
scanner's state for a received byte, and for UNKNOWN_TYPE that no entry maps the code. -/
def Instr.selected (c : DecodeCtx) : Instr → Bool
  | .nop => true
  | .crcInit => true
  | .crcUpdate _ => true
  | .txWrite _ _ => true
  | .txStart _ _ _ => true
  | .cfgWrite _ _ => true
  | .illegalOp67 _ => true
  | .illegalOp8F _ => true
  | .rxScanHunt _ _ => c.rxSource == .scan && c.rxState == .hunt
  | .rxScanResync _ => c.rxSource == .scan && c.rxState == .gotStart
  | .rxScanLength _ _ => c.rxSource == .scan && c.rxState == .gotStart
  | .rxScanCollect _ _ => c.rxSource == .scan && c.rxState == .collect
  | .rxSpan _ _ => c.rxSource == .span
  | .rxIdle _ _ => true
  | .txPop => true
  | .reset => true
  | .newClientClearToSend _ => true
  | .channelAssignmentRequest _ => true
  | .channelAssignmentResponse _ => true
  | .channelAssignmentAcknowledgement _ => true
  | .existingClientRequest _ => true
  | .existingClientResponse _ => true
  | .clientClearToSend _ => true
  | .nothingToSend _ => true
  | .toggleItem _ => true
  | .statusUpdate _ => true
  | .setTemperature _ => true
  | .setTime _ => true
  | .settingsRequest _ => true
  | .filterCycles _ => true
  | .informationResponse _ => true
  | .preferencesResponse _ => true
  | .configurationResponse _ => true
  | .faultLogResponse _ => true
  | .unknownType t => c.typeMap.entry t == none

end Sys2Proof
end

