-- ==== Sys2Proof/Machine/State.lean ====
section
/-! DEFINITION. The machine's state as plain data: every element of 10_state.md R22 to R46, the event outputs of
60_exceptions.md R285, and three fields of the model's own (parameters, coming inputs, resets); and the state after reset
(70_reset_and_hazards.md R310, R311). -/

namespace Sys2Proof.Machine

/-- The error codes (60_exceptions.md R280). Codes 10 to 15 are never produced (I10) and have no constructor. -/
inductive ErrCode where
  | none
  | framingError
  | lengthError
  | checksumError
  | unknownTypeCode
  | invalidLength
  | invalidChannel
  | encodeOverflow
  | txBusy
  | illegalCommand
  deriving DecidableEq, Repr

/-- An internal byte buffer (20_memory.md R60): (index, byte) pairs, indices strictly rising, no byte equal to what an
unlisted index reads as (`Memory.unwritten`, Machine/Ops.lean). -/
abbrev Memory := List Host.Cell

/-- The event outputs (60_exceptions.md R285): each is 1 for exactly the cycle that emits it. `txByte` is
`ev_tx_byte` together with `tx_data` of that cycle, `none` where the event is 0. -/
structure Events where
  frame : Bool := false
  msg : Bool := false
  status : Bool := false
  txStart : Bool := false
  txByte : Option Byte := none
  txDone : Bool := false
  txErr : Bool := false
  cmdErr : Bool := false
  deriving DecidableEq, Repr

/-- The input ports of one cycle (30_encoding.md R84). With every field at its default the cycle is idle
(60_exceptions.md R294). -/
structure CycleInput where
  rst : Bool := false
  rxValid : Bool := false
  rxLast : Bool := false
  rxData : Byte := 0#8
  txReady : Bool := false
  cmdValid : Bool := false
  cmd : CmdWord := 0#32
  deriving DecidableEq, Repr

/-- The block's state. -/
structure State where
  /-- crc_reg (10_state.md R22). -/
  crcReg : Byte
  /-- rx_state (R24). -/
  rxState : RxState
  /-- rx_cnt, 0..258 (R25). -/
  rxCnt : Nat
  /-- rx_need (R26). -/
  rxNeed : Byte
  /-- rx_buf, 257 bytes (R27). -/
  rxBuf : Memory
  /-- rx_lastb (R28). -/
  rxLastb : Byte
  /-- frm_any (R29). -/
  frmAny : Bool
  /-- frm_seq (R30). -/
  frmSeq : Byte
  /-- frm_err (R31). -/
  frmErr : ErrCode
  /-- frm_cnt, 0..258 (R32). -/
  frmCnt : Nat
  /-- frm_ch (R33). -/
  frmCh : Byte
  /-- frm_flag (R33). -/
  frmFlag : Byte
  /-- frm_type (R33). -/
  frmType : Byte
  /-- frm_plen, 0..250 (R34). -/
  frmPlen : Nat
  /-- frm_payload, 250 bytes (R35). -/
  frmPayload : Memory
  /-- frm_crc_rx (R36). -/
  frmCrcRx : Byte
  /-- frm_crc_calc (R36). -/
  frmCrcCalc : Byte
  /-- msg_any (R37). -/
  msgAny : Bool
  /-- msg_err (R38). -/
  msgErr : ErrCode
  /-- msg_variant (R39). -/
  msgVariant : Variant
  /-- msg_sub (R39). -/
  msgSub : SubVariant
  /-- st_valid (R40). -/
  stValid : Bool
  /-- st_snap, 31 bytes (R41). -/
  stSnap : Memory
  /-- st_changed (R41). -/
  stChanged : Bool
  /-- tx_pl, 256 bytes (R44). -/
  txPl : Memory
  /-- tx_pl_w, the spec's ghost bit per byte of tx_pl (R44). -/
  txPlW : BitVec 256
  /-- tx_frame, 257 bytes (R43). -/
  txFrame : Memory
  /-- tx_len, 0..257 (R42). -/
  txLen : Nat
  /-- tx_idx, 0..257 (R42). -/
  txIdx : Nat
  /-- tx_err (R45). -/
  txErr : ErrCode
  /-- cfg_pump_present, bit k-1 for pump k (R46). -/
  cfgPumpPresent : BitVec 6
  /-- cfg_cap_en, bit j for capability item j (R46). -/
  cfgCapEn : BitVec 7
  /-- The event outputs of the cycle just done (60_exceptions.md R285). -/
  events : Events
  /-- The model's own: the parameters (00_scope.md R6), which no step writes (log entry 2). -/
  params : Params
  /-- The model's own: the inputs of the coming cycles, first first; none left is an idle cycle (log entry 3). -/
  inputs : List CycleInput
  /-- The model's own: the number of reset cycles so far, which selects the draw of the buffers' reset contents that the
  host reads (93_implementation_defined.md I1, log entry 6). -/
  resets : Nat
  deriving DecidableEq, Repr

/-- Why the machine stops. -/
inductive Fault where
  /-- Raised by TX_START where the frame would hold a byte of tx_pl never written since reset: the spec's own model
  fault `UnwrittenPayload` (42_frame_tx.md R184, 60_exceptions.md R282). Safe: hardware sends some byte. -/
  | unwrittenPayload
  /-- Raised by RX_SCAN_COLLECT and TX_POP where they would form an index outside rx_buf or tx_frame, an access that
  20_memory.md R60 leaves undefined and says no rule forms (log entry 8). Safe: only states no run reaches. -/
  | bufferIndex
  deriving DecidableEq, Repr

/-- Why an operation has no meaning. No step answers with one. -/
inductive Refusal where
  /-- Raised by an arm of `exec` whose operation is not modelled; there is none. Safe. -/
  | notModelled (mnemonic : String)
  deriving DecidableEq, Repr

/-- The state after reset (70_reset_and_hazards.md R310, R311). The five buffers list nothing: their reset contents
are unspecified, and what an unlisted byte reads as is log entry 1. The parameters have their defaults (log entry 2),
nothing is presented at the ports (log entry 3), and the reset before the first cycle has number 0 (log entry 6). -/
def State.reset : State where
  crcReg := Config.crcInit
  rxState := .hunt
  rxCnt := 0
  rxNeed := 0#8
  rxBuf := []
  rxLastb := 0#8
  frmAny := false
  frmSeq := 0#8
  frmErr := .none
  frmCnt := 0
  frmCh := 0#8
  frmFlag := 0#8
  frmType := 0#8
  frmPlen := 0
  frmPayload := []
  frmCrcRx := 0#8
  frmCrcCalc := 0#8
  msgAny := false
  msgErr := .none
  msgVariant := .newClientClearToSend
  msgSub := .generic
  stValid := false
  stSnap := []
  stChanged := false
  txPl := []
  txPlW := 0#256
  txFrame := []
  txLen := 0
  txIdx := 0
  txErr := .none
  cfgPumpPresent := 0#6
  cfgCapEn := 0#7
  events := {}
  params := defaultParams
  inputs := []
  resets := 0

end Sys2Proof.Machine
end

