-- ==== Sys2Proof/Machine/Ops.lean ====
section
/-! DEFINITION. The named operations over the internal buffers (20_memory.md R60), over outcomes, and over the state:
the one shared operation that records an error (60_exceptions.md R280, R287), and the receiver's return to the start
of a candidate. -/

namespace Sys2Proof.Machine

/-- What a step answers. -/
abbrev Result := Host.Outcome State Fault Refusal

/-- Run `f` on the next state; a fault or a refusal ends the cycle (60_exceptions.md R282, log entry 12). -/
def andThen (r : Result) (f : State → Result) : Result :=
  match r with
  | .next s => f s
  | .fault e => .fault e
  | .refused e => .refused e

/-! ### Buffers -/

/-- What a byte that nothing has written reads as (log entry 1). -/
def Memory.unwritten : Byte := 0x00#8

/-- `MemRead(buf, i)` (20_memory.md R60). -/
def Memory.read (m : Memory) (i : Nat) : Byte :=
  match m with
  | [] => Memory.unwritten
  | c :: rest => if c.1 = i then c.2 else Memory.read rest i

/-- Put a cell before the first cell of a higher index. -/
def Memory.insert (c : Host.Cell) (m : Memory) : Memory :=
  match m with
  | [] => [c]
  | d :: rest => if c.1 < d.1 then c :: d :: rest else d :: Memory.insert c rest

/-- Unlist an index. -/
def Memory.erase (m : Memory) (i : Nat) : Memory := m.filter (fun c => c.1 != i)

/-- `MemWrite(buf, i, v)` (20_memory.md R60). -/
def Memory.write (m : Memory) (i : Nat) (v : Byte) : Memory :=
  if v = Memory.unwritten then m.erase i else Memory.insert (i, v) (m.erase i)

/-- Bytes `i .. i+n-1` (00_scope.md R9, `B[i..j]`). -/
def Memory.readSlice (m : Memory) (i n : Nat) : List Byte := (List.range' i n).map m.read

/-- Write the bytes `bs` at `i`, `i+1`, ... in order. -/
def Memory.writeSlice (m : Memory) (i : Nat) (bs : List Byte) : Memory :=
  match bs with
  | [] => m
  | b :: rest => Memory.writeSlice (m.write i b) (i + 1) rest

/-- The canonical form: indices strictly rising, and no byte listed that an unlisted index reads as. -/
abbrev Memory.wf (m : Memory) : Prop :=
  m.Pairwise (fun c d => c.1 < d.1) ∧ ∀ c ∈ m, c.2 ≠ Memory.unwritten

/-- Every listed index lies in a buffer of `n` bytes. -/
abbrev Memory.within (m : Memory) (n : Nat) : Prop := ∀ c ∈ m, c.1 < n

/-! ### Errors -/

/-- Record an error in its unit's result register and emit its event (60_exceptions.md R280): the block goes on, with
no transfer of control and nothing saved (R287, R288). `IllegalCommand` has no register. -/
def raiseError (e : ErrCode) (s : State) : State :=
  match e with
  | .none => s
  | .framingError => { s with frmErr := e, events := { s.events with frame := true } }
  | .lengthError => { s with frmErr := e, events := { s.events with frame := true } }
  | .checksumError => { s with frmErr := e, events := { s.events with frame := true } }
  | .unknownTypeCode => { s with msgErr := e, events := { s.events with msg := true } }
  | .invalidLength => { s with msgErr := e, events := { s.events with msg := true } }
  | .invalidChannel => { s with msgErr := e, events := { s.events with msg := true } }
  | .encodeOverflow => { s with txErr := e, events := { s.events with txErr := true } }
  | .txBusy => { s with txErr := e, events := { s.events with txErr := true } }
  | .illegalCommand => { s with events := { s.events with cmdErr := true } }

/-- What follows an error: the receiver returns to HUNT with its counters 0, after a failed candidate as after a good
one (41_frame_rx.md R149, R156; 60_exceptions.md R287). -/
def rearm (s : State) : State := { s with rxState := .hunt, rxCnt := 0, rxNeed := 0#8 }

/-- The start of a cycle: the event outputs are 0 (60_exceptions.md R285) and `rest` are the inputs still to come. -/
def beginCycle (rest : List CycleInput) (s : State) : State := { s with events := {}, inputs := rest }

end Sys2Proof.Machine
end

