-- ==== Sys2Proof/Machine/Operands.lean ====
section
/-! DEFINITION. Operand forms: the port words of a cycle (30_encoding.md R85, R86, R90), the bit fields of a snapshot
byte (44_status_unpack.md R240), the frame fields a dispatch works on (43_dispatch.md R203), and the payload a
TX_START reads (42_frame_tx.md R184). -/

namespace Sys2Proof.Machine

/-- The receive port of a cycle (30_encoding.md R85). -/
def CycleInput.rxPort (c : CycleInput) : PortWord := .rxPort (rxWord c.rxValid c.rxLast c.rxData)

/-- The transmit port of a cycle (30_encoding.md R86). -/
def CycleInput.txPort (c : CycleInput) : PortWord := .txPort (BitVec.ofBool c.txReady)

/-- The reset port of a cycle (30_encoding.md R84). -/
def CycleInput.rstPort (c : CycleInput) : PortWord := .rstPort (BitVec.ofBool c.rst)

/-- What selects a row in this state. -/
def State.decodeCtx (s : State) : DecodeCtx := ⟨s.params.rxSource, s.rxState, s.params.typeMap⟩

/-- `field(i, lsb, w)`: bits `lsb + w - 1 .. lsb` of byte `i` (44_status_unpack.md R240). -/
def field (m : Memory) (i lsb w : Nat) : BitVec w := (m.read i).extractLsb' lsb w

/-- The payload of the last good frame (10_state.md R34, R35). -/
def goodPayload (s : State) : List Byte := s.frmPayload.readSlice 0 s.frmPlen

/-- The 31-byte status payload `r.payload[0..30]` (43_dispatch.md R203). -/
def statusPayload (s : State) : List Byte := s.frmPayload.readSlice 0 Config.statusLen

/-- `SubVariant(c0, c1, c2)` (43_dispatch.md R222). -/
def subVariant (m : SubcodeMap) (c0 c1 c2 : Byte) : SubVariant := (List.lookup (c0, c1, c2) m).getD .generic

/-- The sub-variant of the payload's first three bytes (43_dispatch.md R203). -/
def payloadSubVariant (s : State) : SubVariant :=
  subVariant s.params.subcodeMap (s.frmPayload.read 0) (s.frmPayload.read 1) (s.frmPayload.read 2)

/-- The first `n` staged payload bytes (42_frame_tx.md R184). -/
def stagedPayload (s : State) (n : Nat) : List Byte := s.txPl.readSlice 0 n

/-- Every one of the first `n` staged bytes has been written since reset (42_frame_tx.md R184). -/
def stagedWritten (s : State) (n : Nat) : Bool := (List.range n).all (fun i => s.txPlW.getLsbD i)

end Sys2Proof.Machine
end

