-- ==== Sys2Proof/Machine/Flags.lean ====
section
/-! DEFINITION. The status flags (10_state.md R47: no condition codes) and the numbers that the result registers
show: the codes of 60_exceptions.md R280, the variants of 43_dispatch.md R200, the sub-variants of R222, and the
scanner states of 10_state.md R24. -/

namespace Sys2Proof.Machine

/-- `tx_busy` (10_state.md R42). -/
def txBusy (s : State) : Bool := decide (s.txIdx < s.txLen)

/-- The number of an error code (60_exceptions.md R280). -/
def ErrCode.code : ErrCode → BitVec 4
  | .none => 0
  | .framingError => 1
  | .lengthError => 2
  | .checksumError => 3
  | .unknownTypeCode => 4
  | .invalidLength => 5
  | .invalidChannel => 6
  | .encodeOverflow => 7
  | .txBusy => 8
  | .illegalCommand => 9

/-- The encoding of the scanner's state in a hardware build (10_state.md R24). -/
def rxStateEnc : RxState → BitVec 2
  | .hunt => 0
  | .gotStart => 1
  | .collect => 2

/-- The number of a variant, as `msg_variant` shows it (43_dispatch.md R200). -/
def variantNum : Variant → BitVec 5
  | .newClientClearToSend => 0
  | .channelAssignmentRequest => 1
  | .channelAssignmentResponse => 2
  | .channelAssignmentAcknowledgement => 3
  | .existingClientRequest => 4
  | .existingClientResponse => 5
  | .clientClearToSend => 6
  | .nothingToSend => 7
  | .toggleItem => 8
  | .statusUpdate => 9
  | .setTemperature => 10
  | .setTime => 11
  | .settingsRequest => 12
  | .filterCycles => 13
  | .informationResponse => 14
  | .preferencesResponse => 15
  | .configurationResponse => 16
  | .faultLogResponse => 17

/-- The number of a settings sub-variant, as `msg_sub` shows it (43_dispatch.md R222). -/
def subVariantNum : SubVariant → BitVec 3
  | .generic => 0
  | .filterCycles => 1
  | .information => 2
  | .preferences => 3
  | .faultLog => 4
  | .configuration => 5

end Sys2Proof.Machine
end

