-- ==== Sys2Proof/Machine/Crc.lean ====
section
/-! DEFINITION. The CRC-8 unit (40_crc8.md): the function that the host's unit, the frame checker and the encoder all
use, and the host's two commands. -/

namespace Sys2Proof.Machine

/-- One of the eight shifts of R121. -/
def crcShift (x : Byte) : Byte := if x.getLsbD 7 then (x <<< 1) ^^^ Config.crcPoly else x <<< 1

/-- `k` shifts in a row. -/
def crcShifts : Nat → Byte → Byte
  | 0, x => x
  | k + 1, x => crcShifts k (crcShift x)

/-- `crc_step(c, b)` (40_crc8.md R121). -/
def crcStep (c b : Byte) : Byte := crcShifts 8 (c ^^^ b)

/-- `crc8(B)` (40_crc8.md R122). -/
def crc8 (bs : List Byte) : Byte := bs.foldl crcStep Config.crcInit ^^^ Config.crcXorOut

/-- `CRC_INIT` (40_crc8.md R123). -/
def execCrcInit (s : State) : Result := .next { s with crcReg := Config.crcInit }

/-- `CRC_UPDATE b` (40_crc8.md R124). -/
def execCrcUpdate (b : Byte) (s : State) : Result := .next { s with crcReg := crcStep s.crcReg b }

end Sys2Proof.Machine
end

