-- ==== Sys2Proof/Machine/Command.lean ====
section
/-! DEFINITION. The host commands that are no unit's own: NOP, CFG_WRITE and the illegal words (30_encoding.md R88, R91,
R92). -/

namespace Sys2Proof.Machine

/-- `NOP` (30_encoding.md R91). -/
def execNop (s : State) : Result := .next s

/-- `CFG_WRITE cap, pumps` (30_encoding.md R88). -/
def execCfgWrite (cap : BitVec 7) (pumps : BitVec 6) (s : State) : Result :=
  .next { s with cfgCapEn := cap, cfgPumpPresent := pumps }

/-- A word of op 0x6 or 0x7 (30_encoding.md R92): nothing but `ev_cmd_err`. -/
def execIllegalOp67 (_low : BitVec 29) (s : State) : Result := .next (raiseError .illegalCommand s)

/-- A word of op 0x8 to 0xF (30_encoding.md R92): nothing but `ev_cmd_err`. -/
def execIllegalOp8F (_low : BitVec 31) (s : State) : Result := .next (raiseError .illegalCommand s)

/-- A word of op 0x0 to 0x5 with a reserved bit that is 1 (30_encoding.md R92): nothing but `ev_cmd_err`. -/
def illegalReserved (s : State) : Result := .next (raiseError .illegalCommand s)

end Sys2Proof.Machine
end

