-- ==== Sys2Proof/Machine/Transmitter.lean ====
section
/-! DEFINITION. The frame transmitter (42_frame_tx.md): the encoder, the staging writes, the start of a frame and the
byte output. -/

namespace Sys2Proof.Machine

/-- The flag byte of a channel (30_encoding.md R82). -/
def flagOf (ch : Byte) : Byte := if ch = Config.chBcast then Config.flagBcast else Config.flagNormal

/-- The bytes that the checksum covers: length, channel, flag, type code, payload (42_frame_tx.md R180, 40_crc8.md
R126). -/
def frameBody (ch t : Byte) (pl : List Byte) : List Byte :=
  BitVec.ofNat 8 (pl.length + Config.hdrOverhead) :: ch :: flagOf ch :: t :: pl

/-- `Encode(ch, t, pl)` (42_frame_tx.md R180). -/
def encodeFrame (ch t : Byte) (pl : List Byte) : List Byte :=
  Config.delim :: (frameBody ch t pl ++ [crc8 (frameBody ch t pl), Config.delim])

/-- `TX_WRITE i, b` (42_frame_tx.md R182). -/
def execTxWrite (i b : Byte) (s : State) : Result :=
  .next { s with txPl := s.txPl.write i.toNat b, txPlW := s.txPlW ||| (1#256 <<< i.toNat) }

/-- Load an accepted frame (42_frame_tx.md R184, the last branch). -/
def loadFrame (f : List Byte) (s : State) : State :=
  { s with txFrame := s.txFrame.writeSlice 0 f, txLen := f.length, txIdx := 0, txErr := .none,
           events := { s.events with txStart := true } }

/-- `TX_START ch, t, n` (42_frame_tx.md R184). -/
def execTxStart (ch t n : Byte) (s : State) : Result :=
  if txBusy s then .next (raiseError .txBusy s)
  else if Config.maxPayload < n.toNat then .next (raiseError .encodeOverflow s)
  else if stagedWritten s n.toNat then .next (loadFrame (encodeFrame ch t (stagedPayload s n.toNat)) s)
  else .fault .unwrittenPayload

/-- `TX_POP` (42_frame_tx.md R186). An index outside tx_frame faults (log entry 8). -/
def execTxPop (s : State) : Result :=
  if txBusy s then
    if s.txIdx < Config.txFrameBytes then
      .next { s with
        txIdx := s.txIdx + 1,
        events := { s.events with
          txByte := some (s.txFrame.read s.txIdx),
          txDone := s.events.txDone || decide (s.txIdx + 1 = s.txLen) } }
    else .fault .bufferIndex
  else .next s

end Sys2Proof.Machine
end

