-- ==== Sys2Proof/Machine/Unpacker.lean ====
section
/-! DEFINITION. The status unpacker's snapshot update (44_status_unpack.md R243). The status fields are outputs
computed from the snapshot at every moment (R241): Machine/Outputs.lean. -/

namespace Sys2Proof.Machine

/-- The snapshot differs from the payload `p`, or there is none yet (44_status_unpack.md R243). -/
def snapshotDiffers (p : List Byte) (s : State) : Bool :=
  !s.stValid || s.stSnap.readSlice 0 Config.statusLen != p

/-- `StatusUnpack(p)` (44_status_unpack.md R243). -/
def statusUnpack (p : List Byte) (s : State) : State :=
  if snapshotDiffers p s then
    { s with stSnap := s.stSnap.writeSlice 0 p, stValid := true, stChanged := true,
             events := { s.events with status := true } }
  else { s with stChanged := false, events := { s.events with status := true } }

end Sys2Proof.Machine
end

