-- ==== Sys2Proof/Machine/Dispatcher.lean ====
section
/-! DEFINITION. The message-type dispatcher (43_dispatch.md): the checks and the record of R203, one meaning per
variant (R204 to R221) and one for an unmapped type code, and the dispatch of a good frame. The frame's fields are
read from frm_ch, frm_plen and frm_payload, which the completion has just written (41_frame_rx.md R156). -/

namespace Sys2Proof.Machine

/-- The length check and then the channel check of R203 on the frame in the result registers. -/
def checkPins (k : Pins) (s : State) : ErrCode :=
  if k.len.any (fun n => s.frmPlen != n) then .invalidLength
  else if k.ch.any (fun c => s.frmCh != c) then .invalidChannel
  else .none

/-- R203 for a mapped type code: the variant is recorded whatever the checks say, the sub-variant only on a match, and
`ev_msg` is emitted. `sub` is the sub-variant a match records. -/
def recordMsg (v : Variant) (k : Pins) (sub : SubVariant) (s : State) : State :=
  match checkPins k s with
  | .none => { s with msgAny := true, msgVariant := v, msgErr := .none, msgSub := sub,
                      events := { s.events with msg := true } }
  | e => raiseError e { s with msgAny := true, msgVariant := v }

/-- Dispatch as `NewClientClearToSend` (43_dispatch.md R204). -/
def execNewClientClearToSend (k : Pins) (s : State) : Result := .next (recordMsg .newClientClearToSend k .generic s)

/-- Dispatch as `ChannelAssignmentRequest` (43_dispatch.md R205). -/
def execChannelAssignmentRequest (k : Pins) (s : State) : Result := .next (recordMsg .channelAssignmentRequest k .generic s)

/-- Dispatch as `ChannelAssignmentResponse` (43_dispatch.md R206). -/
def execChannelAssignmentResponse (k : Pins) (s : State) : Result := .next (recordMsg .channelAssignmentResponse k .generic s)

/-- Dispatch as `ChannelAssignmentAcknowledgement` (43_dispatch.md R207). -/
def execChannelAssignmentAcknowledgement (k : Pins) (s : State) : Result := .next (recordMsg .channelAssignmentAcknowledgement k .generic s)

/-- Dispatch as `ExistingClientRequest` (43_dispatch.md R208). -/
def execExistingClientRequest (k : Pins) (s : State) : Result := .next (recordMsg .existingClientRequest k .generic s)

/-- Dispatch as `ExistingClientResponse` (43_dispatch.md R209). -/
def execExistingClientResponse (k : Pins) (s : State) : Result := .next (recordMsg .existingClientResponse k .generic s)

/-- Dispatch as `ClientClearToSend` (43_dispatch.md R210). -/
def execClientClearToSend (k : Pins) (s : State) : Result := .next (recordMsg .clientClearToSend k .generic s)

/-- Dispatch as `NothingToSend` (43_dispatch.md R211). -/
def execNothingToSend (k : Pins) (s : State) : Result := .next (recordMsg .nothingToSend k .generic s)

/-- Dispatch as `ToggleItem` (43_dispatch.md R212). -/
def execToggleItem (k : Pins) (s : State) : Result := .next (recordMsg .toggleItem k .generic s)

/-- Dispatch as `StatusUpdate` (43_dispatch.md R213): on a match the status unpacker runs on the payload. -/
def execStatusUpdate (k : Pins) (s : State) : Result :=
  if checkPins k s = .none then .next (statusUnpack (statusPayload s) (recordMsg .statusUpdate k .generic s))
  else .next (recordMsg .statusUpdate k .generic s)

/-- Dispatch as `SetTemperature` (43_dispatch.md R214). -/
def execSetTemperature (k : Pins) (s : State) : Result := .next (recordMsg .setTemperature k .generic s)

/-- Dispatch as `SetTime` (43_dispatch.md R215). -/
def execSetTime (k : Pins) (s : State) : Result := .next (recordMsg .setTime k .generic s)

/-- Dispatch as `SettingsRequest` (43_dispatch.md R216): a match records the sub-variant of its 3-byte code. -/
def execSettingsRequest (k : Pins) (s : State) : Result :=
  .next (recordMsg .settingsRequest k (payloadSubVariant s) s)

/-- Dispatch as `FilterCycles` (43_dispatch.md R217). -/
def execFilterCycles (k : Pins) (s : State) : Result := .next (recordMsg .filterCycles k .generic s)

/-- Dispatch as `InformationResponse` (43_dispatch.md R218). -/
def execInformationResponse (k : Pins) (s : State) : Result := .next (recordMsg .informationResponse k .generic s)

/-- Dispatch as `PreferencesResponse` (43_dispatch.md R219). -/
def execPreferencesResponse (k : Pins) (s : State) : Result := .next (recordMsg .preferencesResponse k .generic s)

/-- Dispatch as `ConfigurationResponse` (43_dispatch.md R220). -/
def execConfigurationResponse (k : Pins) (s : State) : Result := .next (recordMsg .configurationResponse k .generic s)

/-- Dispatch as `FaultLogResponse` (43_dispatch.md R221). -/
def execFaultLogResponse (k : Pins) (s : State) : Result := .next (recordMsg .faultLogResponse k .generic s)

/-- Dispatch of a frame whose type code is unmapped (43_dispatch.md R203): msg_variant and msg_sub stay. -/
def execUnknownType (_t : Byte) (s : State) : Result :=
  .next (raiseError .unknownTypeCode { s with msgAny := true })

/-- The meaning of a variant. -/
def runVariant (v : Variant) (k : Pins) (s : State) : Result :=
  match v with
  | .newClientClearToSend => execNewClientClearToSend k s
  | .channelAssignmentRequest => execChannelAssignmentRequest k s
  | .channelAssignmentResponse => execChannelAssignmentResponse k s
  | .channelAssignmentAcknowledgement => execChannelAssignmentAcknowledgement k s
  | .existingClientRequest => execExistingClientRequest k s
  | .existingClientResponse => execExistingClientResponse k s
  | .clientClearToSend => execClientClearToSend k s
  | .nothingToSend => execNothingToSend k s
  | .toggleItem => execToggleItem k s
  | .statusUpdate => execStatusUpdate k s
  | .setTemperature => execSetTemperature k s
  | .setTime => execSetTime k s
  | .settingsRequest => execSettingsRequest k s
  | .filterCycles => execFilterCycles k s
  | .informationResponse => execInformationResponse k s
  | .preferencesResponse => execPreferencesResponse k s
  | .configurationResponse => execConfigurationResponse k s
  | .faultLogResponse => execFaultLogResponse k s

/-- `Dispatch(r)` of the good frame in the result registers (43_dispatch.md R203). -/
def dispatch (s : State) : Result :=
  match s.params.typeMap.entry s.frmType with
  | some e => runVariant e.variant e.pins s
  | none => execUnknownType s.frmType s

end Sys2Proof.Machine
end

