-- ==== Sys2Proof/Machine/Receiver.lean ====
section
/-! DEFINITION. The frame receiver (41_frame_rx.md): the frame checker, the completion of a candidate, the scanner's
steps and the span step. -/

namespace Sys2Proof.Machine

/-- The fields of a good frame (41_frame_rx.md R155). `payload` has `plen` bytes. -/
structure GoodFrame where
  ch : Byte
  flag : Byte
  type : Byte
  payload : List Byte
  crc : Byte
  deriving DecidableEq, Repr

/-- What the frame checker answers (41_frame_rx.md R155). -/
inductive FrameResult where
  | framingError
  | lengthError
  | checksumError (crcRx crcCalc : Byte)
  | ok (f : GoodFrame)
  deriving DecidableEq, Repr

/-- `FrameCheck(cnt, buf, lastb)` (41_frame_rx.md R155). -/
def frameCheck (cnt : Nat) (buf : Memory) (lastb : Byte) : FrameResult :=
  if cnt < Config.minFrame ∨ buf.read 0 ≠ Config.delim ∨ lastb ≠ Config.delim then .framingError
  else if (buf.read 1).toNat ≠ cnt - 2 then .lengthError
  else
    let crcCalc := crc8 (buf.readSlice 1 (cnt - 3))
    let crcRx := buf.read (cnt - 2)
    if crcCalc ≠ crcRx then .checksumError crcRx crcCalc
    else .ok ⟨buf.read 2, buf.read 3, buf.read 4, buf.readSlice 5 ((buf.read 1).toNat - Config.hdrOverhead), crcRx⟩

/-- What every completion writes, good or bad (41_frame_rx.md R156, second line, without frm_err). -/
def countCandidate (s : State) : State :=
  { s with frmAny := true, frmSeq := s.frmSeq + 1#8, frmCnt := s.rxCnt }

/-- What a good candidate writes before it is dispatched (41_frame_rx.md R156). -/
def latchFrame (f : GoodFrame) (s : State) : State :=
  { s with frmErr := .none, frmCrcRx := f.crc, frmCrcCalc := f.crc, frmCh := f.ch, frmFlag := f.flag,
           frmType := f.type, frmPlen := f.payload.length, frmPayload := s.frmPayload.writeSlice 0 f.payload,
           events := { s.events with frame := true } }

/-- `complete()` (41_frame_rx.md R156). -/
def complete (s : State) : Result :=
  match frameCheck s.rxCnt s.rxBuf s.rxLastb with
  | .framingError => .next (rearm (raiseError .framingError (countCandidate s)))
  | .lengthError => .next (rearm (raiseError .lengthError (countCandidate s)))
  | .checksumError crcRx crcCalc =>
    .next (rearm (raiseError .checksumError { countCandidate s with frmCrcRx := crcRx, frmCrcCalc := crcCalc }))
  | .ok f => andThen (dispatch (latchFrame f (countCandidate s))) (fun t => .next (rearm t))

/-- `RX_SCAN(b)` in state HUNT (41_frame_rx.md R144). A byte other than the delimiter changes no state (R144; for
20_memory.md R66 see log entry 13). rx_lastb stays, as the pseudocode has it (DEDUCED, log entry 7). -/
def execRxScanHunt (_l : Bool) (b : Byte) (s : State) : Result :=
  if b = Config.delim then
    .next { s with rxBuf := s.rxBuf.write 0 Config.delim, rxCnt := 1, rxState := .gotStart }
  else .next s

/-- `RX_SCAN(0x7E)` in state GOT_START: resynchronisation, which changes no state (41_frame_rx.md R145;
for 20_memory.md R66 see log entry 13). -/
def execRxScanResync (_l : Bool) (s : State) : Result := .next s

/-- `RX_SCAN(b)`, b not 0x7E, in state GOT_START: the length byte (41_frame_rx.md R146). -/
def execRxScanLength (_l : Bool) (b : Byte) (s : State) : Result :=
  let s' := { s with rxBuf := s.rxBuf.write 1 b, rxCnt := 2, rxNeed := b, rxLastb := b }
  if b = 0x00#8 then complete s' else .next { s' with rxState := .collect }

/-- `RX_SCAN(b)` in state COLLECT (41_frame_rx.md R147). An index outside rx_buf faults (log entry 8). -/
def execRxScanCollect (_l : Bool) (b : Byte) (s : State) : Result :=
  if s.rxCnt < Config.rxBufBytes then
    let s' := { s with rxBuf := s.rxBuf.write s.rxCnt b, rxCnt := s.rxCnt + 1, rxNeed := s.rxNeed - 1#8, rxLastb := b }
    if s'.rxNeed = 0#8 then complete s' else .next s'
  else .fault .bufferIndex

/-- `RX_SPAN(b, last)` (41_frame_rx.md R151). -/
def execRxSpan (l : Bool) (b : Byte) (s : State) : Result :=
  let s' := { s with
    rxBuf := if s.rxCnt < Config.rxBufBytes then s.rxBuf.write s.rxCnt b else s.rxBuf,
    rxCnt := min (s.rxCnt + 1) Config.cntSat,
    rxLastb := b }
  if l then complete s' else .next s'

/-- A cycle with rx_valid = 0: the receive sub-step does nothing (30_encoding.md R85). -/
def execRxIdle (_l : Bool) (_b : Byte) (s : State) : Result := .next s

end Sys2Proof.Machine
end

