-- ==== Sys2Proof/Machine/ResetOp.lean ====
section
/-! DEFINITION. The reset sub-step (70_reset_and_hazards.md R310). -/

namespace Sys2Proof.Machine

/-- `RESET` (70_reset_and_hazards.md R310): every element at its reset value and no event. The parameters are not
touched, the inputs still to come are the environment's, and the buffers' contents are a new draw (I1, log entry 6). -/
def execReset (s : State) : Result :=
  .next { State.reset with params := s.params, inputs := s.inputs, resets := s.resets + 1 }

end Sys2Proof.Machine
end

