-- ==== Sys2Proof/Machine/Dispatch.lean ====
section
/-! DEFINITION. One arm per operation of the table, each one direct call of its meaning. -/

namespace Sys2Proof.Machine

def exec (i : Instr) (s : State) : Host.Outcome State Fault Refusal :=
  match i with
  | .nop => Sys2Proof.Machine.execNop s
  | .crcInit => Sys2Proof.Machine.execCrcInit s
  | .crcUpdate b => Sys2Proof.Machine.execCrcUpdate b s
  | .txWrite j b => Sys2Proof.Machine.execTxWrite j b s
  | .txStart ch t n => Sys2Proof.Machine.execTxStart ch t n s
  | .cfgWrite cap pumps => Sys2Proof.Machine.execCfgWrite cap pumps s
  | .illegalOp67 low => Sys2Proof.Machine.execIllegalOp67 low s
  | .illegalOp8F low => Sys2Proof.Machine.execIllegalOp8F low s
  | .rxScanHunt l b => Sys2Proof.Machine.execRxScanHunt l b s
  | .rxScanResync l => Sys2Proof.Machine.execRxScanResync l s
  | .rxScanLength l b => Sys2Proof.Machine.execRxScanLength l b s
  | .rxScanCollect l b => Sys2Proof.Machine.execRxScanCollect l b s
  | .rxSpan l b => Sys2Proof.Machine.execRxSpan l b s
  | .rxIdle l b => Sys2Proof.Machine.execRxIdle l b s
  | .txPop => Sys2Proof.Machine.execTxPop s
  | .reset => Sys2Proof.Machine.execReset s
  | .newClientClearToSend k => Sys2Proof.Machine.execNewClientClearToSend k s
  | .channelAssignmentRequest k => Sys2Proof.Machine.execChannelAssignmentRequest k s
  | .channelAssignmentResponse k => Sys2Proof.Machine.execChannelAssignmentResponse k s
  | .channelAssignmentAcknowledgement k => Sys2Proof.Machine.execChannelAssignmentAcknowledgement k s
  | .existingClientRequest k => Sys2Proof.Machine.execExistingClientRequest k s
  | .existingClientResponse k => Sys2Proof.Machine.execExistingClientResponse k s
  | .clientClearToSend k => Sys2Proof.Machine.execClientClearToSend k s
  | .nothingToSend k => Sys2Proof.Machine.execNothingToSend k s
  | .toggleItem k => Sys2Proof.Machine.execToggleItem k s
  | .statusUpdate k => Sys2Proof.Machine.execStatusUpdate k s
  | .setTemperature k => Sys2Proof.Machine.execSetTemperature k s
  | .setTime k => Sys2Proof.Machine.execSetTime k s
  | .settingsRequest k => Sys2Proof.Machine.execSettingsRequest k s
  | .filterCycles k => Sys2Proof.Machine.execFilterCycles k s
  | .informationResponse k => Sys2Proof.Machine.execInformationResponse k s
  | .preferencesResponse k => Sys2Proof.Machine.execPreferencesResponse k s
  | .configurationResponse k => Sys2Proof.Machine.execConfigurationResponse k s
  | .faultLogResponse k => Sys2Proof.Machine.execFaultLogResponse k s
  | .unknownType t => Sys2Proof.Machine.execUnknownType t s

end Sys2Proof.Machine
end

