-- ==== Sys2Proof/Machine/Cycle.lean ====
section
/-! DEFINITION. One clock cycle: the decoded port words run in the order of 00_scope.md R13, each seeing the state the
one before left; and the placing of a word of the table so that the next cycle runs it. -/

namespace Sys2Proof.Machine

/-- Decode a port word in this state and run its operation. A command with a reserved bit that is 1 is illegal
(30_encoding.md R92); a port that asks for nothing does nothing (R86). -/
def runWord (w : PortWord) (s : State) : Result :=
  match decode s.decodeCtx w with
  | .ok i => exec i s
  | .error .reservedBit => illegalReserved s
  | .error .noTransaction => .next s

/-- The host command sub-step (30_encoding.md R90): a cycle with cmd_valid = 0 performs no command. -/
def runCommand (c : CycleInput) (s : State) : Result :=
  if c.cmdValid then runWord (.cmd32 c.cmd) s else .next s

/-- The sub-steps of a cycle with rst = 0: receive, transmit pop, host command (00_scope.md R13). -/
def runSubSteps (c : CycleInput) (s : State) : Result :=
  andThen (runWord c.rxPort s) (fun s₁ => andThen (runWord c.txPort s₁) (fun s₂ => runCommand c s₂))

/-- The cycle with the inputs `c`: reset replaces every other sub-step (00_scope.md R13, 70_reset_and_hazards.md
R310). -/
def runCycle (c : CycleInput) (s : State) : Result :=
  if c.rst then runWord c.rstPort s else runSubSteps c s

/-- The next cycle: the first of the coming inputs is presented at the ports, or nothing if none is left. -/
def nextCycle (s : State) : Result :=
  match s.inputs with
  | [] => runCycle {} (beginCycle [] s)
  | c :: rest => runCycle c (beginCycle rest s)

/-- The frame that `placeWord` brings in for the type code `t`: on the pinned channel (else 0) with a payload of zeros
of the pinned length (else none). -/
def carrierFrame (m : TypeMap) (t : Byte) : List Byte :=
  match m.entry t with
  | some e => encodeFrame (e.pins.ch.getD 0#8) t (List.replicate (e.pins.len.getD 0) 0#8)
  | none => encodeFrame 0#8 t []

/-- Present one cycle's inputs ahead of those already waiting. -/
def present (c : CycleInput) (s : State) : State := { s with inputs := c :: s.inputs }

/-- A received candidate that lacks only its closing delimiter, which the next cycle presents. -/
def placeFrame (f : List Byte) (s : State) : State :=
  present { rxValid := true, rxLast := true, rxData := Config.delim }
    { s with rxState := .collect, rxCnt := f.length - 1, rxNeed := 1#8,
             rxBuf := s.rxBuf.writeSlice 0 f.dropLast }

/-- `s` with a word of the table placed where the next cycle runs it: a command word at the command port, a
receive-port word at the receive port, and a type code in a good frame whose last byte the next cycle receives. -/
def placeWord (s : State) (nbits w : Nat) : State :=
  if nbits = 32 then present { cmdValid := true, cmd := BitVec.ofNat 32 w } s
  else if nbits = 8 then placeFrame (carrierFrame s.params.typeMap (BitVec.ofNat 8 w)) s
  else if nbits = 16 then
    let v : BitVec 10 := BitVec.ofNat 10 w
    present { rxValid := v.getLsbD 9, rxLast := v.getLsbD 8, rxData := v.extractLsb' 0 8 } s
  else s

end Sys2Proof.Machine
end

