-- ==== Sys2Proof/Machine/Step.lean ====
section
/-! DEFINITION. One step of the machine is one clock cycle (00_scope.md R12). -/

namespace Sys2Proof.Machine

/-- One clock cycle (00_scope.md R12, R13). -/
def step (s : State) : Host.Outcome State Fault Refusal := nextCycle s

/-- `s` with a word of the opcode table placed so that the very next step runs it (log entry 3). -/
def State.withFetchWord (s : State) (nbits w : Nat) : State := placeWord s nbits w

end Sys2Proof.Machine
end

