-- ==== Sys2Proof/Machine/Outputs.lean ====
section
/-! DEFINITION. What the host sees between cycles (00_scope.md R13): the output wires and the derived status outputs
(30_encoding.md R84, 44_status_unpack.md R241). None is stored. An output whose value the spec leaves open is a
free value: an argument `draw`, any byte, or a byte of Config's drawn at reset (log entry 6). -/

namespace Sys2Proof.Machine

/-! ### CRC, transmitter, buffers -/

/-- `crc_out` (10_state.md R23, 40_crc8.md R125). -/
def crcOut (s : State) : Byte := s.crcReg ^^^ Config.crcXorOut

/-- `tx_valid` (10_state.md R42). -/
def txValid (s : State) : Bool := txBusy s

/-- `tx_data` (30_encoding.md R84, 42_frame_tx.md R187): tx_frame[tx_idx] while tx_valid = 1, unspecified otherwise
(I6). -/
def txData (draw : Byte) (s : State) : Byte := if txValid s then s.txFrame.read s.txIdx else draw

/-- A host read of frm_payload[i] (10_state.md R35). At frm_plen and above it is unspecified, a draw per read (I3), and so
is an index of 250 or more, undefined by 20_memory.md R60 (log entry 6). -/
def hostReadPayload (draw : Byte) (i : Nat) (s : State) : Byte := if i < s.frmPlen then s.frmPayload.read i else draw

/-- A host read of st_snap[i] (10_state.md R41): the byte, which while st_valid = 0 is the one drawn at the last reset (I1),
so that a repeated read answers the same (20_memory.md R66). An index of 31 or more, undefined by R60, answers a free
value (log entry 6). -/
def hostReadSnapshot (i : Nat) (s : State) : Byte :=
  if s.stValid && decide (i < Config.stSnapBytes) then s.stSnap.read i else Config.stSnapAtReset s.resets i

/-- A host read of tx_pl[i] (10_state.md R44): the byte, which where nothing has been written since reset is the one drawn
there (I1), so that a repeated read answers the same (20_memory.md R66). An index of 256 or more, undefined by R60,
answers a free value (log entry 6). -/
def hostReadStaging (i : Nat) (s : State) : Byte :=
  if s.txPlW.getLsbD i then s.txPl.read i else Config.txPlAtReset s.resets i

/-! ### The derived status outputs -/

/-- The raw 2-bit speed state of pump `k`, 1 to 6 (44_status_unpack.md R251). -/
def rawPump (m : Memory) (k : Nat) : BitVec 2 :=
  if k ≤ 4 then field m 11 (2 * (k - 1)) 2 else field m 12 (2 * (k - 5)) 2

/-- `st_pump[k]`: an absent pump reads 0 (44_status_unpack.md R251). -/
def stPump (s : State) (k : Nat) : BitVec 2 :=
  if s.cfgPumpPresent.getLsbD (k - 1) then rawPump s.stSnap k else 0#2

/-- `st_cap[j]`, zero-extended to a byte: a disabled item reads 0 (44_status_unpack.md R255). -/
def stCap (pf : CapMap) (s : State) (j : Fin 7) : Byte :=
  if s.cfgCapEn.getLsbD j.val then
    (field s.stSnap (pf.get j).byte (pf.get j).lsb (pf.get j).width).setWidth 8
  else 0#8

/-- The outputs of 44_status_unpack.md R241. -/
structure StatusOutputs where
  /-- st_priming (R244). -/
  priming : BitVec 1
  /-- st_temp_raw (R245). -/
  tempRaw : Byte
  /-- st_hour (R247). -/
  hour : Byte
  /-- st_minute (R247). -/
  minute : Byte
  /-- st_heat_mode (R248). -/
  heatMode : BitVec 2
  /-- st_temp_scale (R249). -/
  tempScale : BitVec 1
  /-- st_clock24 (R249). -/
  clock24 : BitVec 1
  /-- st_filter_mode (R249). -/
  filterMode : BitVec 2
  /-- st_temp_range (R250). -/
  tempRange : BitVec 1
  /-- st_heating (R250). -/
  heating : BitVec 2
  /-- st_heating_active (R250). -/
  heatingActive : Bool
  /-- st_pump[1..6], pump 1 first (R251). -/
  pump : Vector (BitVec 2) 6
  /-- st_set_temp_raw (R253). -/
  setTempRaw : Byte
  /-- st_cap[0..6], item 0 first (R255). -/
  cap : Vector Byte 7
  deriving DecidableEq, Repr

/-- The status outputs, `none` while st_valid = 0 (44_status_unpack.md R242). -/
def statusOutputs (pf : CapMap) (s : State) : Option StatusOutputs :=
  if s.stValid then
    some {
      priming := field s.stSnap 1 0 1
      tempRaw := s.stSnap.read 2
      hour := s.stSnap.read 3
      minute := s.stSnap.read 4
      heatMode := field s.stSnap 5 0 2
      tempScale := field s.stSnap 9 0 1
      clock24 := field s.stSnap 9 1 1
      filterMode := field s.stSnap 9 2 2
      tempRange := field s.stSnap 10 3 1
      heating := field s.stSnap 10 4 2
      heatingActive := field s.stSnap 10 4 2 != 0#2
      pump := Vector.ofFn (fun k : Fin 6 => stPump s (k.val + 1))
      setTempRaw := s.stSnap.read 20
      cap := Vector.ofFn (fun j : Fin 7 => stCap pf s j) }
  else none

/-! ### What the raw values mean -/

/-- A temperature (44_status_unpack.md R246): the scale bit with the raw byte, never rounded. -/
structure Temperature where
  celsius : Bool
  raw : Byte
  deriving DecidableEq, Repr

/-- The degrees of a temperature: half-degree units in Celsius, whole degrees in Fahrenheit (44_status_unpack.md
R246). -/
def Temperature.degrees (t : Temperature) : Rat := if t.celsius then (t.raw.toNat : Rat) / 2 else (t.raw.toNat : Rat)

/-- The current temperature (44_status_unpack.md R245, R246). Scale bit 1 is Celsius (G5, log entry 9). -/
def StatusOutputs.temperature (o : StatusOutputs) : Temperature := ⟨o.tempScale == 1#1, o.tempRaw⟩

/-- The set temperature, same convention (44_status_unpack.md R253). -/
def StatusOutputs.setTemperature (o : StatusOutputs) : Temperature := ⟨o.tempScale == 1#1, o.setTempRaw⟩

/-- The names of the heating mode's values (44_status_unpack.md R248). -/
inductive HeatMode where
  | ready
  | rest
  | readyInRest
  deriving DecidableEq, Repr

/-- The name of a heating-mode value; 3 has none (44_status_unpack.md R248). -/
def heatModeName (v : BitVec 2) : Option HeatMode :=
  if v = 0#2 then some .ready else if v = 1#2 then some .rest else if v = 2#2 then some .readyInRest else none

end Sys2Proof.Machine
end

