-- ==== Sys2Proof/Machine/Script.lean ====
section
/-! DEFINITION. The program notation of 30_encoding.md R96: one cycle's inputs per line, and the pseudo-operations'
expansions. The block does not read it; it builds cycle inputs. -/

namespace Sys2Proof.Machine

/-- `RESET` (R96). -/
def Script.reset : CycleInput := { rst := true }

/-- `RX bb` (R96). -/
def Script.rx (b : Byte) : CycleInput := { rxValid := true, rxData := b }

/-- `RX bb last` (R96). -/
def Script.rxLast (b : Byte) : CycleInput := { rxValid := true, rxData := b, rxLast := true }

/-- `POP` (R96). -/
def Script.pop : CycleInput := { txReady := true }

/-- A command word (R96). -/
def Script.word (w : CmdWord) : CycleInput := { cmdValid := true, cmd := w }

/-- A command by name: the word of R87. An operation that is no command presents nothing. -/
def Script.cmd (i : Instr) : CycleInput :=
  match encode [] i with
  | some (.cmd32 w) => Script.word w
  | _ => {}

/-- `A ‖ B`: both lines' actions in one cycle (R96). Where both present the same port, `a`'s is taken. -/
def Script.both (a b : CycleInput) : CycleInput where
  rst := a.rst || b.rst
  rxValid := a.rxValid || b.rxValid
  rxLast := if a.rxValid then a.rxLast else b.rxLast
  rxData := if a.rxValid then a.rxData else b.rxData
  txReady := a.txReady || b.txReady
  cmdValid := a.cmdValid || b.cmdValid
  cmd := if a.cmdValid then a.cmd else b.cmd

/-- `RXS b0 ... bk` (R96). -/
def Script.rxs (bs : List Byte) : List CycleInput := bs.map Script.rx

/-- `SPAN b0 ... bk` (R96); an empty span cannot be presented (41_frame_rx.md R157). -/
def Script.span : List Byte → List CycleInput
  | [] => []
  | [b] => [Script.rxLast b]
  | b :: rest => Script.rx b :: Script.span rest

/-- `POPS m` (R96). -/
def Script.pops (m : Nat) : List CycleInput := List.replicate m Script.pop

/-- `CRC_BYTES b0 ... bk` (R96). -/
def Script.crcBytes (bs : List Byte) : List CycleInput := bs.map (fun b => Script.cmd (.crcUpdate b))

/-- The staging writes of a payload from index `i` on. -/
def Script.stage (i : Nat) : List Byte → List CycleInput
  | [] => []
  | p :: rest => Script.cmd (.txWrite (BitVec.ofNat 8 i) p) :: Script.stage (i + 1) rest

/-- `SEND ch, t, [p0 ... p(n-1)]` (R96). -/
def Script.send (ch t : Byte) (pl : List Byte) : List CycleInput :=
  Script.stage 0 pl ++ [Script.cmd (.txStart ch t (BitVec.ofNat 8 pl.length))]

/-- The items a toggle frame names (43_dispatch.md R223); the block never reads their codes. -/
inductive ToggleCode where
  | pump (k : Fin 6)
  | blower
  | mister
  | light (k : Fin 2)
  | aux (k : Fin 2)
  | holdMode
  | temperatureRange
  | heatMode
  deriving DecidableEq, Repr

/-- The commonly documented toggle item codes, for hosts and test programs (43_dispatch.md R223, G3, log entry 9);
pumps, lights and aux outputs count from 0 here. -/
def ToggleCode.byte : ToggleCode → Byte
  | .pump k => BitVec.ofNat 8 (0x04 + k.val)
  | .blower => 0x0C#8
  | .mister => 0x0E#8
  | .light k => BitVec.ofNat 8 (0x11 + k.val)
  | .aux k => BitVec.ofNat 8 (0x16 + k.val)
  | .holdMode => 0x3C#8
  | .temperatureRange => 0x50#8
  | .heatMode => 0x51#8

end Sys2Proof.Machine
end

