-- ==== Sys2Proof/Safety.lean ====
section
/-! DEFINITION. What claims are stated in: the invariant that every step keeps, the end of a run (70_reset_and_hazards.md
R329), and what it means for two states to agree on everything the spec defines (R310, I1). -/

namespace Sys2Proof.Machine

/-! ### The invariant -/

/-- A buffer is in canonical form and lists only indices of its range (20_memory.md R60). -/
abbrev Memory.Ok (m : Memory) (n : Nat) : Prop := m.wf ∧ m.within n

/-- The candidate in progress in SCAN mode (10_state.md R24 to R26; 41_frame_rx.md R144 to R149, the derivations of
R147). -/
def ScanInv (s : State) : Prop :=
  match s.rxState with
  | .hunt => s.rxCnt = 0 ∧ s.rxNeed = 0#8
  | .gotStart => s.rxCnt = 1 ∧ s.rxNeed = 0#8 ∧ s.rxBuf.read 0 = Config.delim
  | .collect => 2 ≤ s.rxCnt ∧ s.rxNeed ≠ 0#8 ∧ s.rxCnt + s.rxNeed.toNat = (s.rxBuf.read 1).toNat + 2 ∧
      s.rxBuf.read 0 = Config.delim ∧ s.rxBuf.read 1 ≠ Config.delim ∧ s.rxBuf.read (s.rxCnt - 1) = s.rxLastb

/-- The candidate in progress in SPAN mode (41_frame_rx.md R151, R152). -/
def SpanInv (s : State) : Prop :=
  s.rxState = .hunt ∧ s.rxNeed = 0#8 ∧ s.rxCnt ≤ Config.cntSat ∧
    (1 ≤ s.rxCnt → s.rxCnt ≤ Config.rxBufBytes → s.rxBuf.read (s.rxCnt - 1) = s.rxLastb)

/-- The receive state, by P_RX_SOURCE. -/
def RxInv (s : State) : Prop :=
  match s.params.rxSource with
  | .scan => ScanInv s
  | .span => SpanInv s

/-- The invariant of the machine. -/
structure State.Inv (s : State) : Prop where
  /-- The five buffers (20_memory.md R60). -/
  rxBuf : s.rxBuf.Ok Config.rxBufBytes
  frmPayload : s.frmPayload.Ok Config.frmPayloadBytes
  stSnap : s.stSnap.Ok Config.stSnapBytes
  txPl : s.txPl.Ok Config.txPlBytes
  txFrame : s.txFrame.Ok Config.txFrameBytes
  /-- The candidate in progress. -/
  rx : RxInv s
  /-- 10_state.md R31, R32, R34. -/
  frmErr : s.frmErr ∈ [ErrCode.none, .framingError, .lengthError, .checksumError]
  frmCnt : s.frmCnt ≤ Config.cntSat
  frmPlen : s.frmPlen ≤ Config.maxPayload
  /-- 10_state.md R38. -/
  msgErr : s.msgErr ∈ [ErrCode.none, .unknownTypeCode, .invalidLength, .invalidChannel]
  /-- 10_state.md R42, R45. -/
  txIdx : s.txIdx ≤ s.txLen
  txLen : s.txLen ≤ Config.txFrameBytes
  txErr : s.txErr ∈ [ErrCode.none, .encodeOverflow, .txBusy]
  /-- 10_state.md R29, R37, R40, R41: a dispatch follows a completion, a snapshot follows a dispatch. -/
  msgAny : s.msgAny = true → s.frmAny = true
  stValid : s.stValid = true → s.msgAny = true
  stChanged : s.stChanged = true → s.stValid = true

/-! ### The end of a run -/

/-- A run is quiescent in this end state (70_reset_and_hazards.md R329). That no fault is recorded is that the run
answered a state at all. -/
def Quiescent (s : State) : Prop :=
  (match s.params.rxSource with
   | .scan => s.rxState = .hunt
   | .span => s.rxCnt = 0) ∧ txBusy s = false

/-- `k` cycles, with the event outputs of each (70_reset_and_hazards.md R329). A fault or a refusal ends the run without
an end state (60_exceptions.md R282). -/
def runCycles : Nat → State → Option (State × List Events)
  | 0, s => some (s, [])
  | k + 1, s =>
    match step s with
    | .next t => (runCycles k t).map (fun r => (r.1, t.events :: r.2))
    | .fault _ => none
    | .refused _ => none

/-! ### Agreement on what the spec defines -/

/-- `s` and `t` hold the same bytes at the indices that satisfy `p`. -/
def Memory.agreeOn (m m' : Memory) (p : Nat → Prop) : Prop := ∀ i, p i → m.read i = m'.read i

/-- `s` and `t` differ at most in bytes that the spec leaves unspecified (70_reset_and_hazards.md R310; I1, I3): rx_buf
beyond the candidate in progress, frm_payload beyond the last good frame, st_snap while st_valid = 0, tx_pl where
nothing has been written, tx_frame beyond the loaded frame. -/
structure SameDefined (s t : State) : Prop where
  others : t = { s with rxBuf := t.rxBuf, frmPayload := t.frmPayload, stSnap := t.stSnap, txPl := t.txPl,
                        txFrame := t.txFrame }
  rxBuf : s.rxBuf.agreeOn t.rxBuf (fun i => i < s.rxCnt ∧ i < Config.rxBufBytes)
  frmPayload : s.frmPayload.agreeOn t.frmPayload (fun i => i < s.frmPlen)
  stSnap : s.stSnap.agreeOn t.stSnap (fun i => s.stValid = true ∧ i < Config.stSnapBytes)
  txPl : s.txPl.agreeOn t.txPl (fun i => s.txPlW.getLsbD i = true)
  txFrame : s.txFrame.agreeOn t.txFrame (fun i => i < s.txLen)

/-- `s` and `t` have the same receive state: the receiver's elements (10_state.md R24 to R28) and the frame result
registers (R29 to R36). -/
structure SameReceiveState (s t : State) : Prop where
  rxState : t.rxState = s.rxState
  rxCnt : t.rxCnt = s.rxCnt
  rxNeed : t.rxNeed = s.rxNeed
  rxBuf : t.rxBuf = s.rxBuf
  rxLastb : t.rxLastb = s.rxLastb
  frmAny : t.frmAny = s.frmAny
  frmSeq : t.frmSeq = s.frmSeq
  frmErr : t.frmErr = s.frmErr
  frmCnt : t.frmCnt = s.frmCnt
  frmCh : t.frmCh = s.frmCh
  frmFlag : t.frmFlag = s.frmFlag
  frmType : t.frmType = s.frmType
  frmPlen : t.frmPlen = s.frmPlen
  frmPayload : t.frmPayload = s.frmPayload
  frmCrcRx : t.frmCrcRx = s.frmCrcRx
  frmCrcCalc : t.frmCrcCalc = s.frmCrcCalc

/-- Two answers of a cycle that agree on what the spec defines. -/
def SameAnswer (r r' : Result) : Prop :=
  match r, r' with
  | .next s, .next t => SameDefined s t
  | .fault e, .fault e' => e = e'
  | .refused e, .refused e' => e = e'
  | _, _ => False

/-! ### Reference readings of the spec's rules -/

/-- The match and mask of the six command rows (30_encoding.md R87), op 0x0 first. -/
def commandRows : List (CmdWord × CmdWord) :=
  [ (0x00000000#32, 0xFFFFFFFF#32),
    (0x10000000#32, 0xFFFFFFFF#32),
    (0x20000000#32, 0xFFFFFF00#32),
    (0x30000000#32, 0xFFFF0000#32),
    (0x40000000#32, 0xFF000000#32),
    (0x50000000#32, 0xFFFF80C0#32) ]

/-- The word is one of the six commands with every reserved bit 0 (30_encoding.md R87, R90). -/
def legalCommand (w : CmdWord) : Prop := ∃ r ∈ commandRows, w &&& r.2 = r.1

/-- The product of two polynomials over GF(2), bit k standing for x^k, cut at x^15. -/
def polyMul (q p : BitVec 16) : BitVec 16 :=
  (List.range 16).foldl (fun acc k => if q.getLsbD k then acc ^^^ (p <<< k) else acc) 0#16

/-- What one cycle's inputs do to crc_reg (10_state.md R22, 40_crc8.md R123 to R125): reset and the two CRC commands
write it, and nothing else does. -/
def crcEffect (r : Byte) (c : CycleInput) : Byte :=
  if c.rst then 0x02#8
  else if c.cmdValid then
    match decodeCommand c.cmd with
    | .ok .crcInit => 0x02#8
    | .ok (.crcUpdate b) => crcStep r b
    | _ => r
  else r

/-- The source's `decode(bytes)` on a whole byte sequence of any length (41_frame_rx.md R155, R157). -/
def decodeSpan (bs : List Byte) : FrameResult :=
  if bs.length < 7 ∨ bs.head? ≠ some 0x7E#8 ∨ bs.getLast? ≠ some 0x7E#8 then .framingError
  else if (bs.getD 1 0#8).toNat ≠ bs.length - 2 then .lengthError
  else
    let crcCalc := crc8 ((bs.drop 1).take (bs.length - 3))
    let crcRx := bs.getD (bs.length - 2) 0#8
    if crcCalc ≠ crcRx then .checksumError crcRx crcCalc
    else .ok ⟨bs.getD 2 0#8, bs.getD 3 0#8, bs.getD 4 0#8, (bs.drop 5).take (bs.length - 7), crcRx⟩

/-- The code that `frm_err` records for what the frame checker answers (60_exceptions.md R280). -/
def FrameResult.err : FrameResult → ErrCode
  | .framingError => .framingError
  | .lengthError => .lengthError
  | .checksumError _ _ => .checksumError
  | .ok _ => .none

/-- The part of the block that an operation belongs to (00_scope.md R2, R12). -/
inductive BlockPart where
  | command
  | crc
  | config
  | receiver
  | dispatcher
  | transmitter
  | reset
  deriving DecidableEq, Repr

/-- The part of an operation. -/
def instrPart : Instr → BlockPart
  | .nop => .command
  | .crcInit => .crc
  | .crcUpdate _ => .crc
  | .txWrite _ _ => .transmitter
  | .txStart _ _ _ => .transmitter
  | .cfgWrite _ _ => .config
  | .illegalOp67 _ => .command
  | .illegalOp8F _ => .command
  | .rxScanHunt _ _ => .receiver
  | .rxScanResync _ => .receiver
  | .rxScanLength _ _ => .receiver
  | .rxScanCollect _ _ => .receiver
  | .rxSpan _ _ => .receiver
  | .rxIdle _ _ => .receiver
  | .txPop => .transmitter
  | .reset => .reset
  | .newClientClearToSend _ => .dispatcher
  | .channelAssignmentRequest _ => .dispatcher
  | .channelAssignmentResponse _ => .dispatcher
  | .channelAssignmentAcknowledgement _ => .dispatcher
  | .existingClientRequest _ => .dispatcher
  | .existingClientResponse _ => .dispatcher
  | .clientClearToSend _ => .dispatcher
  | .nothingToSend _ => .dispatcher
  | .toggleItem _ => .dispatcher
  | .statusUpdate _ => .dispatcher
  | .setTemperature _ => .dispatcher
  | .setTime _ => .dispatcher
  | .settingsRequest _ => .dispatcher
  | .filterCycles _ => .dispatcher
  | .informationResponse _ => .dispatcher
  | .preferencesResponse _ => .dispatcher
  | .configurationResponse _ => .dispatcher
  | .faultLogResponse _ => .dispatcher
  | .unknownType _ => .dispatcher

/-- The host's commands (30_encoding.md R87). -/
def isCommand : Instr → Bool
  | .nop => true
  | .crcInit => true
  | .crcUpdate _ => true
  | .txWrite _ _ => true
  | .txStart _ _ _ => true
  | .cfgWrite _ _ => true
  | .illegalOp67 _ => true
  | .illegalOp8F _ => true
  | .rxScanHunt _ _ => false
  | .rxScanResync _ => false
  | .rxScanLength _ _ => false
  | .rxScanCollect _ _ => false
  | .rxSpan _ _ => false
  | .rxIdle _ _ => false
  | .txPop => false
  | .reset => false
  | .newClientClearToSend _ => false
  | .channelAssignmentRequest _ => false
  | .channelAssignmentResponse _ => false
  | .channelAssignmentAcknowledgement _ => false
  | .existingClientRequest _ => false
  | .existingClientResponse _ => false
  | .clientClearToSend _ => false
  | .nothingToSend _ => false
  | .toggleItem _ => false
  | .statusUpdate _ => false
  | .setTemperature _ => false
  | .setTime _ => false
  | .settingsRequest _ => false
  | .filterCycles _ => false
  | .informationResponse _ => false
  | .preferencesResponse _ => false
  | .configurationResponse _ => false
  | .faultLogResponse _ => false
  | .unknownType _ => false

end Sys2Proof.Machine
end

