-- ==== Sys2Proof/Certificates/Slice0/Obligations.lean ====
section
/-! DEFINITION. The statements for the provers. Each docstring names the rule of spec/ it formalises. -/

open Sys2Proof Sys2Proof.Machine

/-! ### Encodings and the cycle -/

/-- Words written out from the encoding columns of 30_encoding.md R87 and of the R85 and R201 tables, each with the
operation it stands for; the examples of R88, R182, R184 and R92 among them. -/
def Obligations.WrittenOutWordsDecodeToTheirOperations : Prop :=
  decodeCommand 0x00000000#32 = .ok .nop ∧
  decodeCommand 0x10000000#32 = .ok .crcInit ∧
  decodeCommand 0x20000005#32 = .ok (.crcUpdate 0x05#8) ∧
  decodeCommand 0x30000004#32 = .ok (.txWrite 0x00#8 0x04#8) ∧
  decodeCommand 0x40101102#32 = .ok (.txStart 0x10#8 0x11#8 0x02#8) ∧
  decodeCommand 0x5000003F#32 = .ok (.cfgWrite 0x00#7 0x3F#6) ∧
  decodeCommand 0x50007F3F#32 = .ok (.cfgWrite 0x7F#7 0x3F#6) ∧
  decodeCommand 0x60000000#32 = .ok (.illegalOp67 0#29) ∧
  decodeCommand 0xF0000000#32 = .ok (.illegalOp8F 0x70000000#31) ∧
  decodeCommand 0x20000100#32 = .error .reservedBit ∧
  decodeRx .scan .hunt 0b1001111110#10 = .rxScanHunt false 0x7E#8 ∧
  decodeRx .scan .gotStart 0b1101111110#10 = .rxScanResync true ∧
  decodeRx .scan .gotStart 0b1000000101#10 = .rxScanLength false 0x05#8 ∧
  decodeRx .scan .collect 0b1001111110#10 = .rxScanCollect false 0x7E#8 ∧
  decodeRx .span .hunt 0b1101111110#10 = .rxSpan true 0x7E#8 ∧
  decodeRx .scan .collect 0b0001111110#10 = .rxIdle false 0x7E#8 ∧
  decodeType defaultTypeMap 0x13#8 = .statusUpdate ⟨some 31, some 0xFF#8⟩ ∧
  decodeType defaultTypeMap 0x24#8 = .informationResponse ⟨none, none⟩ ∧
  decodeType defaultTypeMap 0x99#8 = .unknownType 0x99#8

/-- Decode and encode agree, for every operation, every operand, every receive source and scanner state and every
P_TYPE_MAP (30_encoding.md R85 to R93): decoding the word of a well-formed operation that the context selects gives it
back, and every operation but a variant the map gives no code has a word. -/
def Obligations.DecodingAnEncodedOperationGivesItBack : Prop :=
  (∀ (c : DecodeCtx) (i : Instr) (w : PortWord), i.wf = true → i.selected c = true → encode c.typeMap i = some w →
    decode c w = .ok i) ∧
  (∀ (c : DecodeCtx) (t : Byte) (e : TypeEntry), c.typeMap.entry t = some e →
    ∃ u : Byte, encode c.typeMap (e.variant.instr e.pins) = some (.msgType8 u)) ∧
  (∀ (c : DecodeCtx) (i : Instr), (∀ v k, i ≠ Variant.instr v k) → (encode c.typeMap i).isSome = true)

/-- The other direction: what the decoder answers is selected in its context, is well formed under an admissible
P_TYPE_MAP (43_dispatch.md R202), and encodes to the very word it was read from; where several codes map to one entry,
to one of them. -/
def Obligations.EncodingADecodedWordGivesItBack : Prop :=
  ∀ (c : DecodeCtx) (w : PortWord) (i : Instr), decode c w = .ok i →
    i.selected c = true ∧ (c.typeMap.Admissible → i.wf = true) ∧
    ∃ w', encode c.typeMap i = some w' ∧ decode c w' = .ok i ∧ ((∀ t, w ≠ .msgType8 t) → w' = w)

/-- The six command rows of 30_encoding.md R87, and what every other word is (R90, R92, R94): the decoder takes a word
for one of the six commands exactly when it matches a row; a word of op 0x0 to 0x5 that matches none is rejected for a
reserved bit; ops 0x6, 0x7 and 0x8 to 0xF are the two illegal rows. -/
def Obligations.CommandWordsAreLegalExactlyAsTheRowsSay : Prop :=
  ∀ w : CmdWord,
    (legalCommand w ↔ ∃ i, decodeCommand w = .ok i ∧
      (∀ low, i ≠ .illegalOp67 low) ∧ (∀ low, i ≠ .illegalOp8F low)) ∧
    (decodeCommand w = .error .reservedBit ↔ w.toNat < 0x60000000 ∧ ¬ legalCommand w) ∧
    ((∃ low, decodeCommand w = .ok (.illegalOp67 low)) ↔ 0x60000000 ≤ w.toNat ∧ w.toNat < 0x80000000) ∧
    ((∃ low, decodeCommand w = .ok (.illegalOp8F low)) ↔ 0x80000000 ≤ w.toNat) ∧
    decodeCommand w ≠ .error .noTransaction

/-- A step runs the decoded operation: a cycle that uses one port is that port's operation in the state with the event
outputs cleared and the cycle's inputs taken off; a cycle with no inputs, or with all ports at 0, changes nothing else
(00_scope.md R12, R13; 30_encoding.md R85, R86, R90; 60_exceptions.md R285, R294; 70_reset_and_hazards.md R310). -/
def Obligations.StepRunsTheDecodedOperation : Prop :=
  (∀ (s : State) (rest : List CycleInput) (w : CmdWord) (i : Instr), decodeCommand w = .ok i →
    s.inputs = { cmdValid := true, cmd := w } :: rest →
    step s = exec i { s with events := {}, inputs := rest }) ∧
  (∀ (s : State) (rest : List CycleInput) (l : Bool) (b : Byte),
    s.inputs = { rxValid := true, rxLast := l, rxData := b } :: rest →
    step s = exec (decodeRx s.params.rxSource s.rxState (rxWord true l b)) { s with events := {}, inputs := rest }) ∧
  (∀ (s : State) (rest : List CycleInput), s.inputs = { txReady := true } :: rest →
    step s = exec .txPop { s with events := {}, inputs := rest }) ∧
  (∀ (s : State) (c : CycleInput) (rest : List CycleInput), s.inputs = c :: rest → c.rst = true →
    step s = exec .reset { s with events := {}, inputs := rest }) ∧
  (∀ s : State, s.inputs = [] → step s = .next { s with events := {} }) ∧
  (∀ (s : State) (rest : List CycleInput) (l : Bool) (b : Byte) (w : CmdWord),
    s.inputs = { rxLast := l, rxData := b, cmd := w } :: rest →
    step s = .next { s with events := {}, inputs := rest })

/-- The order of the sub-steps within a cycle (00_scope.md R13): reset replaces every other sub-step; otherwise
receive, then the transmit pop, then the host command, each on the state the one before left; an illegal word raises
`ev_cmd_err` and changes no state (30_encoding.md R92). -/
def Obligations.SubStepsOfACycleRunInTheFixedOrder : Prop :=
  ∀ (s : State) (c : CycleInput) (rest : List CycleInput), s.inputs = c :: rest →
    (c.rst = true → step s = exec .reset { s with events := {}, inputs := rest }) ∧
    (c.rst = false → step s =
      andThen (exec (decodeRx s.params.rxSource s.rxState (rxWord c.rxValid c.rxLast c.rxData))
        { s with events := {}, inputs := rest }) fun s₁ =>
      andThen (if c.txReady then exec .txPop s₁ else .next s₁) fun s₂ =>
      if c.cmdValid then
        match decodeCommand c.cmd with
        | .ok i => exec i s₂
        | .error _ => .next { s₂ with events := { s₂.events with cmdErr := true } }
      else .next s₂)

/-! ### The host's commands -/

/-- `NOP` (30_encoding.md R91). -/
def Obligations.NopChangesNothing : Prop :=
  (∀ s : State, exec .nop s = .next s) ∧
  (∀ (w : CmdWord) (s : State), w.toNat < 0x10000000 → w ≠ 0#32 →
    runWord (.cmd32 w) s = .next { s with events := { s.events with cmdErr := true } }) ∧
  (∀ (s : State) (c : CycleInput) (rest : List CycleInput),
    step { s with inputs := { c with cmdValid := true, cmd := 0x00000000#32 } :: rest } =
      step { s with inputs := { c with cmdValid := false } :: rest })

/-- `CFG_WRITE cap, pumps` (30_encoding.md R88): the two fields of CFG are written from bits 14:8 and 5:0 and nothing
else changes, st_snap and the events included; the pump and capability outputs of the next state are gated by the new
value; writing the value already held changes nothing. -/
def Obligations.CfgWriteLoadsBothFields : Prop :=
  (∀ (cap : BitVec 7) (pumps : BitVec 6) (s : State),
    exec (.cfgWrite cap pumps) s = .next { s with cfgCapEn := cap, cfgPumpPresent := pumps }) ∧
  (∀ s : State, exec (.cfgWrite s.cfgCapEn s.cfgPumpPresent) s = .next s) ∧
  (∀ (cap : BitVec 7) (pumps : BitVec 6) (s t : State), exec (.cfgWrite cap pumps) s = .next t →
    (∀ k : Nat, 1 ≤ k → k ≤ 6 → stPump t k = if pumps.getLsbD (k - 1) then rawPump s.stSnap k else 0#2) ∧
    (∀ (pf : CapMap) (j : Fin 7), cap.getLsbD j.val = false → stCap pf t j = 0#8) ∧
    (∀ (pf : CapMap) (j : Fin 7), cap.getLsbD j.val = true →
      stCap pf t j = stCap pf { s with cfgCapEn := BitVec.allOnes 7 } j)) ∧
  (∀ (w : CmdWord) (s : State), 0x50000000 ≤ w.toNat → w.toNat < 0x60000000 →
    (w &&& 0x0FFF80C0#32 = 0#32 → runWord (.cmd32 w) s =
      .next { s with cfgCapEn := w.extractLsb' 8 7, cfgPumpPresent := w.extractLsb' 0 6 }) ∧
    (w &&& 0x0FFF80C0#32 ≠ 0#32 → runWord (.cmd32 w) s =
      .next { s with events := { s.events with cmdErr := true } }))

/-- An illegal command changes no state and emits `ev_cmd_err` (30_encoding.md R92), whichever way it is illegal: the
two illegal rows, and every word that matches no row of R87. -/
def Obligations.IllegalCommandsOnlyRaiseTheirEvent : Prop :=
  (∀ (low : BitVec 29) (s : State),
    exec (.illegalOp67 low) s = .next { s with events := { s.events with cmdErr := true } }) ∧
  (∀ (low : BitVec 31) (s : State),
    exec (.illegalOp8F low) s = .next { s with events := { s.events with cmdErr := true } }) ∧
  (∀ (w : CmdWord) (s : State), ¬ legalCommand w →
    runWord (.cmd32 w) s = .next { s with events := { s.events with cmdErr := true } }) ∧
  ErrCode.illegalCommand.code = 9#4

/-! ### The CRC unit -/

/-- `CRC_INIT` (40_crc8.md R123): the register holds 0x02, crc_out is 0x00, and nothing else changes; it changes nothing
where the register holds 0x02 already; a word of op 0x1 with another bit that is 1 is illegal. -/
def Obligations.CrcInitPresetsTheRegister : Prop :=
  (∀ s : State, exec .crcInit s = .next { s with crcReg := 0x02#8 }) ∧
  (∀ s : State, crcOut { s with crcReg := 0x02#8 } = 0x00#8) ∧
  (∀ s : State, s.crcReg = 0x02#8 → exec .crcInit s = .next s) ∧
  (∀ (w : CmdWord) (s : State), 0x10000000 ≤ w.toNat → w.toNat < 0x20000000 → w ≠ 0x10000000#32 →
    runWord (.cmd32 w) s = .next { s with events := { s.events with cmdErr := true } })

/-- `CRC_UPDATE b` (40_crc8.md R124): the register takes the byte by `crc_step` and nothing else changes; a byte equal to
the register clears it; a word of op 0x2 with a reserved bit that is 1 is illegal. -/
def Obligations.CrcUpdateStepsTheRegister : Prop :=
  (∀ (b : Byte) (s : State), exec (.crcUpdate b) s = .next { s with crcReg := crcStep s.crcReg b }) ∧
  (∀ s : State, exec (.crcUpdate s.crcReg) s = .next { s with crcReg := 0x00#8 }) ∧
  (∀ (w : CmdWord) (s : State), 0x20000000 ≤ w.toNat → w.toNat < 0x30000000 →
    (w &&& 0x0FFFFF00#32 = 0#32 → runWord (.cmd32 w) s = .next { s with crcReg := crcStep s.crcReg (w.setWidth 8) }) ∧
    (w &&& 0x0FFFFF00#32 ≠ 0#32 → runWord (.cmd32 w) s =
      .next { s with events := { s.events with cmdErr := true } }))

/-- `crc_step` is division by the polynomial x^8 + x^2 + x + 1 (40_crc8.md R120, R121): the byte taken into the top of
the register, times x^8, is a multiple of the polynomial plus the new register. -/
def Obligations.CrcStepIsPolynomialDivision : Prop :=
  ∀ c b : Byte, ∃ q : Byte,
    (c ^^^ b).setWidth 16 <<< 8 = polyMul (q.setWidth 16) 0x0107#16 ^^^ (crcStep c b).setWidth 16

/-- The residue property (40_crc8.md R127): a sequence followed by its checksum leaves 0x0E in the register, so its crc8
is 0x0C. -/
def Obligations.ChecksummedSequenceLeavesTheResidue : Prop :=
  ∀ bs : List Byte,
    (bs ++ [crc8 bs]).foldl crcStep 0x02#8 = 0x0E#8 ∧ crc8 (bs ++ [crc8 bs]) = 0x0C#8

/-- crc_reg follows the CRC commands and reset and nothing else, through any run with any other traffic (10_state.md
R22, 40_crc8.md R125, 70_reset_and_hazards.md R324); and CRC_INIT followed by CRC_UPDATE of each byte of `bs` puts
crc8(bs) on crc_out. -/
def Obligations.CrcRegisterFollowsItsCommandsInEveryRun : Prop :=
  (∀ (k : Nat) (s t : State), Host.Core.run Sys2Proof.core k s = .next t →
    t.crcReg = (s.inputs.take k).foldl crcEffect s.crcReg) ∧
  (∀ (bs : List Byte) (s : State) (rest : List CycleInput),
    ∃ t, Host.Core.run Sys2Proof.core (bs.length + 1)
        { s with inputs := Script.cmd .crcInit :: (Script.crcBytes bs ++ rest) } = .next t ∧
      crcOut t = crc8 bs ∧ t.inputs = rest)

/-! ### The transmitter -/

/-- `TX_WRITE i, b` (42_frame_tx.md R182): the one byte of tx_pl and its ghost bit; every other byte, ghost bit and
element stays, tx_frame and its indices among them; a word of op 0x3 is that operation on its fields, or illegal where
a reserved bit is 1. -/
def Obligations.TxWriteStoresOneStagedByte : Prop :=
  (∀ (i b : Byte) (s : State), ∃ t, exec (.txWrite i b) s = .next t ∧
    t = { s with txPl := t.txPl, txPlW := t.txPlW } ∧
    t.txPl.read i.toNat = b ∧ (∀ j : Nat, j ≠ i.toNat → t.txPl.read j = s.txPl.read j) ∧
    t.txPlW.getLsbD i.toNat = true ∧ (∀ j : Nat, j ≠ i.toNat → t.txPlW.getLsbD j = s.txPlW.getLsbD j)) ∧
  (∀ (w : CmdWord) (s : State), 0x30000000 ≤ w.toNat → w.toNat < 0x40000000 →
    (w &&& 0x0FFF0000#32 = 0#32 → runWord (.cmd32 w) s = exec (.txWrite (w.extractLsb' 8 8) (w.extractLsb' 0 8)) s) ∧
    (w &&& 0x0FFF0000#32 ≠ 0#32 → runWord (.cmd32 w) s =
      .next { s with events := { s.events with cmdErr := true } }))

/-- `TX_START ch, t, n` (42_frame_tx.md R184; the layout of the frame from 30_encoding.md R80, its flag from R82).
Accepted, with the transmitter idle, n at most 250 and the first n staged bytes written: tx_frame holds the frame byte
for byte, its bytes beyond the frame stay, and nothing but the transmitter's registers and `ev_tx_start` changes.
Turned away: busy first, then overflow, each recorded in tx_err with `ev_tx_err` and nothing else changed; then the
model fault of a staged byte never written. A word of op 0x4 is that operation on its fields, or illegal where a reserved
bit is 1. -/
def Obligations.TxStartLoadsTheFrameOrIsTurnedAway : Prop :=
  (∀ (ch ty n : Byte) (s : State), ¬ s.txIdx < s.txLen → n.toNat ≤ 250 →
    (∀ i : Nat, i < n.toNat → s.txPlW.getLsbD i = true) →
    ∃ t, exec (.txStart ch ty n) s = .next t ∧
      t = { s with txFrame := t.txFrame, txLen := n.toNat + 7, txIdx := 0, txErr := .none,
                   events := { s.events with txStart := true } } ∧
      t.txFrame.read 0 = 0x7E#8 ∧
      (t.txFrame.read 1).toNat = n.toNat + 5 ∧
      t.txFrame.read 2 = ch ∧
      t.txFrame.read 3 = (if ch = 0xFF#8 then 0xAF#8 else 0xBF#8) ∧
      t.txFrame.read 4 = ty ∧
      (∀ i : Nat, i < n.toNat → t.txFrame.read (5 + i) = s.txPl.read i) ∧
      t.txFrame.read (5 + n.toNat) = crc8 (t.txFrame.readSlice 1 (n.toNat + 4)) ∧
      t.txFrame.read (6 + n.toNat) = 0x7E#8 ∧
      (∀ j : Nat, n.toNat + 7 ≤ j → t.txFrame.read j = s.txFrame.read j) ∧
      txBusy t = true) ∧
  (∀ (ch ty n : Byte) (s : State),
    (s.txIdx < s.txLen → exec (.txStart ch ty n) s =
      .next { s with txErr := .txBusy, events := { s.events with txErr := true } }) ∧
    (¬ s.txIdx < s.txLen → 250 < n.toNat → exec (.txStart ch ty n) s =
      .next { s with txErr := .encodeOverflow, events := { s.events with txErr := true } }) ∧
    (¬ s.txIdx < s.txLen → n.toNat ≤ 250 → (∃ i : Nat, i < n.toNat ∧ s.txPlW.getLsbD i = false) →
      exec (.txStart ch ty n) s = .fault .unwrittenPayload)) ∧
  ErrCode.none.code = 0#4 ∧ ErrCode.txBusy.code = 8#4 ∧ ErrCode.encodeOverflow.code = 7#4 ∧
  (∀ (w : CmdWord) (s : State), 0x40000000 ≤ w.toNat → w.toNat < 0x50000000 →
    (w &&& 0x0F000000#32 = 0#32 → runWord (.cmd32 w) s =
      exec (.txStart (w.extractLsb' 16 8) (w.extractLsb' 8 8) (w.extractLsb' 0 8)) s) ∧
    (w &&& 0x0F000000#32 ≠ 0#32 → runWord (.cmd32 w) s =
      .next { s with events := { s.events with cmdErr := true } }))

/-- `TX_POP` (42_frame_tx.md R186): while busy, at an index inside tx_frame (20_memory.md R60), the byte at tx_idx
leaves and tx_idx advances, with `ev_tx_done` and tx_busy at 0 on the last; while idle, at any index, nothing happens. -/
def Obligations.TxPopSendsTheNextByte : Prop :=
  ∀ s : State,
    (s.txIdx < s.txLen → s.txIdx < 257 → exec .txPop s =
      .next { s with
        txIdx := s.txIdx + 1,
        events := { s.events with
          txByte := some (s.txFrame.read s.txIdx),
          txDone := s.events.txDone || decide (s.txIdx + 1 = s.txLen) } }) ∧
    (¬ s.txIdx < s.txLen → exec .txPop s = .next s) ∧
    (∀ t, exec .txPop s = .next t → s.txIdx + 1 = s.txLen → txBusy t = false)

/-- Where a rule would form an index outside its buffer (20_memory.md R60: no rule does), the machine stops; that is the
model's choice (log entry 8). Under the invariant only a row that a SPAN machine never selects could do it. -/
def Obligations.IndexOutsideABufferStopsTheMachine : Prop :=
  ∀ s : State,
    (257 ≤ s.txIdx → s.txIdx < s.txLen → exec .txPop s = .fault .bufferIndex) ∧
    (∀ (l : Bool) (b : Byte), 257 ≤ s.rxCnt → exec (.rxScanCollect l b) s = .fault .bufferIndex) ∧
    (s.Inv → ∀ (i : Instr), exec i s = .fault .bufferIndex →
      s.params.rxSource = .span ∧ ∃ (l : Bool) (b : Byte), i = .rxScanCollect l b)

/-- A loaded frame leaves byte by byte in index order, one per cycle with tx_ready = 1, with `ev_tx_done` on its last
byte only, and the transmitter is then idle (20_memory.md R68, 42_frame_tx.md R186). -/
def Obligations.PopsSendTheLoadedFrameInOrder : Prop :=
  ∀ (m : Nat) (s : State) (rest : List CycleInput), s.txIdx + m = s.txLen → s.txLen ≤ 257 → 0 < m →
    s.inputs = Script.pops m ++ rest →
    ∃ t evs, runCycles m s = some (t, evs) ∧
      evs.map (·.txByte) = (s.txFrame.readSlice s.txIdx m).map some ∧
      evs.map (·.txDone) = List.replicate (m - 1) false ++ [true] ∧
      t = { s with txIdx := s.txLen, inputs := rest, events := t.events } ∧ txBusy t = false

/-- A pop and a `TX_START` in one cycle (42_frame_tx.md R185): the start is accepted when the pop sends the last byte,
and refused with `TxBusy` when bytes remain. -/
def Obligations.PopComesBeforeStartInACycle : Prop :=
  ∀ (ch ty n : Byte) (s : State) (c : CycleInput) (rest : List CycleInput),
    s.inputs = c :: rest → c.rst = false → c.rxValid = false → c.txReady = true → c.cmdValid = true →
    decodeCommand c.cmd = .ok (.txStart ch ty n) → n.toNat ≤ 250 →
    (∀ i : Nat, i < n.toNat → s.txPlW.getLsbD i = true) → s.txLen ≤ 257 →
    (s.txIdx + 1 = s.txLen → ∃ t, step s = .next t ∧ t.txIdx = 0 ∧ t.txLen = n.toNat + 7 ∧ t.txErr = .none ∧
      t.events = { txByte := some (s.txFrame.read s.txIdx), txDone := true, txStart := true }) ∧
    (s.txIdx + 1 < s.txLen → ∃ t, step s = .next t ∧ t.txIdx = s.txIdx + 1 ∧ t.txLen = s.txLen ∧
      t.txFrame = s.txFrame ∧ t.txErr = .txBusy ∧
      t.events = { txByte := some (s.txFrame.read s.txIdx), txErr := true })

/-! ### The receiver -/

/-- The receive steps that complete nothing (30_encoding.md R85, 41_frame_rx.md R144, R145): no byte, a byte in HUNT
and the resynchronisation. That the opening delimiter leaves rx_lastb as it was is deduced from R144's pseudocode, where
10_state.md R28's prose reads otherwise (DEDUCED, log entry 7); that a discarded byte and the resynchronisation change
nothing is stated by R144 and R145 (how 20_memory.md R66's summary is read beside them: log entry 13). -/
def Obligations.HuntResyncAndIdleStartOrKeepACandidate : Prop :=
  (∀ (l : Bool) (b : Byte) (s : State), exec (.rxIdle l b) s = .next s) ∧
  (∀ (l : Bool) (b : Byte) (s : State), b ≠ 0x7E#8 → exec (.rxScanHunt l b) s = .next s) ∧
  (∀ (l : Bool) (s : State), ∃ t, exec (.rxScanHunt l 0x7E#8) s = .next t ∧
    t = { s with rxBuf := t.rxBuf, rxCnt := 1, rxState := .gotStart } ∧
    t.rxBuf.read 0 = 0x7E#8 ∧ (∀ j : Nat, j ≠ 0 → t.rxBuf.read j = s.rxBuf.read j)) ∧
  (∀ (l : Bool) (s : State), exec (.rxScanResync l) s = .next s)

/-- The length byte (41_frame_rx.md R146): a nonzero one is stored and counted and the collection starts; a zero one
completes the two-byte candidate, which fails with `FramingError` (R155: fewer than 7 bytes), and nothing of the last
good frame, its message or the snapshot changes (R156). -/
def Obligations.LengthByteStartsTheCollection : Prop :=
  ∀ (l : Bool) (b : Byte) (s : State), ∃ t, exec (.rxScanLength l b) s = .next t ∧
    t.rxBuf.read 1 = b ∧ (∀ j : Nat, j ≠ 1 → t.rxBuf.read j = s.rxBuf.read j) ∧
    (b ≠ 0x00#8 →
      t = { s with rxBuf := t.rxBuf, rxCnt := 2, rxNeed := b, rxLastb := b, rxState := .collect }) ∧
    (b = 0x00#8 →
      t = { s with rxBuf := t.rxBuf, rxCnt := 0, rxNeed := 0x00#8, rxLastb := 0x00#8, rxState := .hunt,
                   frmAny := true, frmSeq := s.frmSeq + 1#8, frmCnt := 2, frmErr := .framingError,
                   events := { s.events with frame := true } })

/-- A byte of a candidate in SCAN mode (41_frame_rx.md R147), for an index inside rx_buf (20_memory.md R60): stored at
rx_cnt and counted; while bytes are still needed nothing else happens, and with the last one the candidate completes. -/
def Obligations.CollectedByteIsStoredAndCounted : Prop :=
  ∀ (l : Bool) (b : Byte) (s : State), s.rxCnt < 257 →
    (s.rxNeed ≠ 1#8 → ∃ t, exec (.rxScanCollect l b) s = .next t ∧
      t = { s with rxBuf := t.rxBuf, rxCnt := s.rxCnt + 1, rxNeed := s.rxNeed - 1#8, rxLastb := b } ∧
      t.rxBuf.read s.rxCnt = b ∧ (∀ j : Nat, j ≠ s.rxCnt → t.rxBuf.read j = s.rxBuf.read j)) ∧
    (s.rxNeed = 1#8 → ∃ u : State,
      u = { s with rxBuf := u.rxBuf, rxCnt := s.rxCnt + 1, rxNeed := 0#8, rxLastb := b } ∧
      u.rxBuf.read s.rxCnt = b ∧ (∀ j : Nat, j ≠ s.rxCnt → u.rxBuf.read j = s.rxBuf.read j) ∧
      exec (.rxScanCollect l b) s = complete u)

/-- A byte of a span (41_frame_rx.md R151): stored while rx_buf has room, counted up to 258, kept as the last byte; the
marked byte completes the candidate. A span of one byte fails with `FramingError`, and one of more than 257 bytes never
passes the length check. -/
def Obligations.SpanByteIsStoredAndCounted : Prop :=
  ∀ (b : Byte) (s : State), ∃ u : State,
    u = { s with rxBuf := u.rxBuf, rxCnt := min (s.rxCnt + 1) 258, rxLastb := b } ∧
    (s.rxCnt < 257 → u.rxBuf.read s.rxCnt = b ∧ ∀ j : Nat, j ≠ s.rxCnt → u.rxBuf.read j = s.rxBuf.read j) ∧
    (257 ≤ s.rxCnt → u.rxBuf = s.rxBuf) ∧
    exec (.rxSpan false b) s = .next u ∧ exec (.rxSpan true b) s = complete u ∧
    (s.rxCnt = 0 → ∃ t, exec (.rxSpan true b) s = .next t ∧ t.frmErr = .framingError) ∧
    (257 ≤ s.rxCnt → ∃ t, exec (.rxSpan true b) s = .next t ∧ (t.frmErr = .framingError ∨ t.frmErr = .lengthError))

/-- `complete()` (41_frame_rx.md R156; 60_exceptions.md R287). A candidate that fails: its error, its count and, at the
checksum stage, both checksums are recorded, `ev_frame` is emitted, the receiver is back in HUNT, and everything else
stays: the last good frame, the message, the snapshot and every buffer. A good candidate: its fields are latched, with
the payload in the first bytes of frm_payload and the later bytes as they were, its type code's operation runs on the
state so latched and answers a next state, and the receiver is back in HUNT. -/
def Obligations.CompletionRecordsAndDispatches : Prop :=
  (∀ (s : State) (r : FrameResult), frameCheck s.rxCnt s.rxBuf s.rxLastb = r → r.err ≠ .none →
    complete s = .next { s with
      rxState := .hunt, rxCnt := 0, rxNeed := 0#8,
      frmAny := true, frmSeq := s.frmSeq + 1#8, frmCnt := s.rxCnt, frmErr := r.err,
      frmCrcRx := (match r with | .checksumError crcRx _ => crcRx | _ => s.frmCrcRx),
      frmCrcCalc := (match r with | .checksumError _ crcCalc => crcCalc | _ => s.frmCrcCalc),
      events := { s.events with frame := true } }) ∧
  (∀ (s : State) (f : GoodFrame), frameCheck s.rxCnt s.rxBuf s.rxLastb = .ok f →
    ∃ u v : State,
      u = { s with
        frmAny := true, frmSeq := s.frmSeq + 1#8, frmCnt := s.rxCnt, frmErr := .none, frmCrcRx := f.crc,
        frmCrcCalc := f.crc, frmCh := f.ch, frmFlag := f.flag, frmType := f.type, frmPlen := f.payload.length,
        frmPayload := u.frmPayload, events := { s.events with frame := true } } ∧
      u.frmPayload.readSlice 0 f.payload.length = f.payload ∧
      (∀ j : Nat, f.payload.length ≤ j → u.frmPayload.read j = s.frmPayload.read j) ∧
      exec (decodeType s.params.typeMap f.type) u = .next v ∧
      complete s = .next { v with rxState := .hunt, rxCnt := 0, rxNeed := 0#8 }) ∧
  [FrameResult.framingError, .lengthError, .checksumError 0#8 1#8, .ok ⟨0#8, 0#8, 0#8, [], 0#8⟩].map
    (fun r => r.err.code) = [1#4, 2#4, 3#4, 0#4]

/-- A span of any bytes, of any length, ends with exactly the verdict of the source's `decode` on the whole byte
sequence (41_frame_rx.md R151, R155, R157): the 257-byte buffer, the saturating count and the last byte kept apart lose
nothing the checker needs. A failed span leaves the last good frame, the message and the snapshot as they were (R156). It
takes one cycle per byte (70_reset_and_hazards.md R328). -/
def Obligations.SpanGivesTheVerdictOfDecode : Prop :=
  ∀ (bs : List Byte) (s : State) (rest : List CycleInput), bs ≠ [] → s.params.rxSource = .span → s.rxCnt = 0 →
    s.inputs = Script.span bs ++ rest →
    ∃ t, Host.Core.run Sys2Proof.core bs.length s = .next t ∧ t.inputs = rest ∧
      t.frmErr = (decodeSpan bs).err ∧ t.frmCnt = min bs.length 258 ∧ t.frmSeq = s.frmSeq + 1#8 ∧
      t.frmAny = true ∧ t.rxCnt = 0 ∧ t.rxState = .hunt ∧ t.events.frame = true ∧
      (∀ f, decodeSpan bs = .ok f → t.frmCh = f.ch ∧ t.frmFlag = f.flag ∧ t.frmType = f.type ∧
        goodPayload t = f.payload ∧ t.frmCrcRx = f.crc ∧ t.frmCrcCalc = f.crc) ∧
      (∀ crcRx crcCalc, decodeSpan bs = .checksumError crcRx crcCalc →
        t.frmCrcRx = crcRx ∧ t.frmCrcCalc = crcCalc) ∧
      ((decodeSpan bs).err ≠ .none → t.frmCh = s.frmCh ∧ t.frmFlag = s.frmFlag ∧ t.frmType = s.frmType ∧
        t.frmPlen = s.frmPlen ∧ t.frmPayload = s.frmPayload ∧
        t.msgAny = s.msgAny ∧ t.msgErr = s.msgErr ∧ t.msgVariant = s.msgVariant ∧ t.msgSub = s.msgSub ∧
        t.stValid = s.stValid ∧ t.stSnap = s.stSnap ∧ t.stChanged = s.stChanged)

/-- Round trip of the pure functions (41_frame_rx.md R158): decoding an encoded frame gives its channel, type and
payload, with the flag of 30_encoding.md R82. -/
def Obligations.DecodingAnEncodedFrameGivesItsFields : Prop :=
  ∀ (ch ty : Byte) (pl : List Byte), pl.length ≤ 250 →
    (encodeFrame ch ty pl).length = pl.length + 7 ∧
    ∃ crc, decodeSpan (encodeFrame ch ty pl) =
      .ok ⟨ch, if ch = 0xFF#8 then 0xAF#8 else 0xBF#8, ty, pl, crc⟩

/-- Round trip through the SCAN-mode receiver (41_frame_rx.md R145, R150, R158): from HUNT, or from GOT_START, an
encoded frame whose length byte is not 0x7E is received whole, one cycle per byte. -/
def Obligations.ScannerReceivesAnEncodedFrameWhole : Prop :=
  ∀ (ch ty : Byte) (pl : List Byte) (s : State) (rest : List CycleInput), pl.length ≤ 250 → pl.length ≠ 121 →
    s.params.rxSource = .scan →
    (s.rxState = .hunt ∨ (s.rxState = .gotStart ∧ s.rxCnt = 1 ∧ s.rxBuf.read 0 = 0x7E#8)) →
    s.inputs = Script.rxs (encodeFrame ch ty pl) ++ rest →
    ∃ t, Host.Core.run Sys2Proof.core (pl.length + 7) s = .next t ∧ t.inputs = rest ∧
      t.frmErr = .none ∧ t.frmCnt = pl.length + 7 ∧ t.frmSeq = s.frmSeq + 1#8 ∧ t.frmCh = ch ∧
      t.frmFlag = (if ch = 0xFF#8 then 0xAF#8 else 0xBF#8) ∧ t.frmType = ty ∧ goodPayload t = pl ∧
      t.rxState = .hunt ∧ t.rxCnt = 0 ∧ t.events.frame = true ∧ t.events.msg = true

/-! ### The dispatcher -/

/-- `Dispatch(r)` (43_dispatch.md R203) on the good frame in the result registers: it is the operation that the type
code decodes to, and that operation records an unmapped code, a length mismatch, a channel mismatch (checked in that
order) or a match, each with `ev_msg`; a matched status broadcast, and nothing else, is unpacked. -/
def Obligations.DispatchFollowsTheTypeMap : Prop :=
  ∀ s : State,
    dispatch s = exec (decodeType s.params.typeMap s.frmType) s ∧
    (s.params.typeMap.entry s.frmType = none → dispatch s = .next { s with
      msgAny := true, msgErr := .unknownTypeCode, events := { s.events with msg := true } }) ∧
    ∀ e : TypeEntry, s.params.typeMap.entry s.frmType = some e →
      ((∃ n, e.pins.len = some n ∧ s.frmPlen ≠ n) → dispatch s = .next { s with
        msgAny := true, msgVariant := e.variant, msgErr := .invalidLength, events := { s.events with msg := true } }) ∧
      ((∀ n, e.pins.len = some n → s.frmPlen = n) → (∃ c, e.pins.ch = some c ∧ s.frmCh ≠ c) → dispatch s = .next { s with
        msgAny := true, msgVariant := e.variant, msgErr := .invalidChannel, events := { s.events with msg := true } }) ∧
      ((∀ n, e.pins.len = some n → s.frmPlen = n) → (∀ c, e.pins.ch = some c → s.frmCh = c) → ∃ u : State,
        u = { s with
          msgAny := true, msgVariant := e.variant, msgErr := .none,
          msgSub := if e.variant = .settingsRequest then
              subVariant s.params.subcodeMap (s.frmPayload.read 0) (s.frmPayload.read 1) (s.frmPayload.read 2)
            else .generic,
          events := { s.events with msg := true } } ∧
        dispatch s = .next (if e.variant = .statusUpdate then statusUnpack (s.frmPayload.readSlice 0 31) u else u)) ∧
      [ErrCode.none.code, ErrCode.unknownTypeCode.code, ErrCode.invalidLength.code, ErrCode.invalidChannel.code] =
        [0#4, 4#4, 5#4, 6#4]

/-- The sixteen variants that only record themselves (43_dispatch.md R203, R204 to R212, R214, R215, R217 to R221): the
length check, then the channel check, and what each outcome writes; nothing else changes. -/
def Obligations.PlainVariantsRecordTheirDispatch : Prop :=
  ∀ (k : Pins) (s : State),
    ∀ p ∈ [ (Instr.newClientClearToSend k, Variant.newClientClearToSend),
            (Instr.channelAssignmentRequest k, Variant.channelAssignmentRequest),
            (Instr.channelAssignmentResponse k, Variant.channelAssignmentResponse),
            (Instr.channelAssignmentAcknowledgement k, Variant.channelAssignmentAcknowledgement),
            (Instr.existingClientRequest k, Variant.existingClientRequest),
            (Instr.existingClientResponse k, Variant.existingClientResponse),
            (Instr.clientClearToSend k, Variant.clientClearToSend),
            (Instr.nothingToSend k, Variant.nothingToSend),
            (Instr.toggleItem k, Variant.toggleItem),
            (Instr.setTemperature k, Variant.setTemperature),
            (Instr.setTime k, Variant.setTime),
            (Instr.filterCycles k, Variant.filterCycles),
            (Instr.informationResponse k, Variant.informationResponse),
            (Instr.preferencesResponse k, Variant.preferencesResponse),
            (Instr.configurationResponse k, Variant.configurationResponse),
            (Instr.faultLogResponse k, Variant.faultLogResponse) ],
      ((∃ n, k.len = some n ∧ s.frmPlen ≠ n) →
        exec p.1 s = .next { s with msgAny := true, msgVariant := p.2, msgErr := .invalidLength,
                                    events := { s.events with msg := true } }) ∧
      ((∀ n, k.len = some n → s.frmPlen = n) → (∃ c, k.ch = some c ∧ s.frmCh ≠ c) →
        exec p.1 s = .next { s with msgAny := true, msgVariant := p.2, msgErr := .invalidChannel,
                                    events := { s.events with msg := true } }) ∧
      ((∀ n, k.len = some n → s.frmPlen = n) → (∀ c, k.ch = some c → s.frmCh = c) →
        exec p.1 s = .next { s with msgAny := true, msgVariant := p.2, msgErr := .none, msgSub := .generic,
                                    events := { s.events with msg := true } })

/-- `SettingsRequest` (43_dispatch.md R216 with R203 and R222): a match records the sub-variant that P_SUBCODE_MAP gives
the payload's three bytes, the generic request for a code it does not list. -/
def Obligations.SettingsRequestRecordsItsSubVariant : Prop :=
  ∀ (k : Pins) (s : State),
    ((∃ n, k.len = some n ∧ s.frmPlen ≠ n) →
      exec (.settingsRequest k) s = .next { s with
        msgAny := true, msgVariant := .settingsRequest, msgErr := .invalidLength, events := { s.events with msg := true } }) ∧
    ((∀ n, k.len = some n → s.frmPlen = n) → (∃ c, k.ch = some c ∧ s.frmCh ≠ c) →
      exec (.settingsRequest k) s = .next { s with
        msgAny := true, msgVariant := .settingsRequest, msgErr := .invalidChannel, events := { s.events with msg := true } }) ∧
    ((∀ n, k.len = some n → s.frmPlen = n) → (∀ c, k.ch = some c → s.frmCh = c) →
      ∃ b : SubVariant, exec (.settingsRequest k) s = .next { s with
        msgAny := true, msgVariant := .settingsRequest, msgErr := .none, msgSub := b, events := { s.events with msg := true } } ∧
      ∀ code : Byte × Byte × Byte,
        code = (s.frmPayload.read 0, s.frmPayload.read 1, s.frmPayload.read 2) →
        (∀ b', s.params.subcodeMap.lookup code = some b' → b = b') ∧
        (s.params.subcodeMap.lookup code = none → b = .generic))

/-- `StatusUpdate` (43_dispatch.md R213 with R203 and 44_status_unpack.md R243): a mismatch is recorded and the snapshot
stays; a match with a payload that differs from the snapshot, or with no snapshot yet, replaces it whole and reports
changed; a match with the same 31 bytes leaves it and reports unchanged. -/
def Obligations.StatusUpdateUnpacksAMatchedBroadcast : Prop :=
  ∀ (k : Pins) (s : State),
    ((∃ n, k.len = some n ∧ s.frmPlen ≠ n) →
      exec (.statusUpdate k) s = .next { s with
        msgAny := true, msgVariant := .statusUpdate, msgErr := .invalidLength, events := { s.events with msg := true } }) ∧
    ((∀ n, k.len = some n → s.frmPlen = n) → (∃ c, k.ch = some c ∧ s.frmCh ≠ c) →
      exec (.statusUpdate k) s = .next { s with
        msgAny := true, msgVariant := .statusUpdate, msgErr := .invalidChannel, events := { s.events with msg := true } }) ∧
    ((∀ n, k.len = some n → s.frmPlen = n) → (∀ c, k.ch = some c → s.frmCh = c) →
      ∃ t, exec (.statusUpdate k) s = .next t ∧
        t = { s with msgAny := true, msgVariant := .statusUpdate, msgErr := .none, msgSub := .generic,
                     stValid := true, stChanged := t.stChanged, stSnap := t.stSnap,
                     events := { s.events with msg := true, status := true } } ∧
        (t.stChanged = true ↔ s.stValid = false ∨ ∃ i : Nat, i < 31 ∧ s.stSnap.read i ≠ s.frmPayload.read i) ∧
        (∀ i : Nat, i < 31 → t.stSnap.read i = s.frmPayload.read i) ∧
        (∀ i : Nat, 31 ≤ i → t.stSnap.read i = s.stSnap.read i) ∧
        (t.stChanged = false → t.stSnap = s.stSnap))

/-- A type code with no entry (43_dispatch.md R203, R221): `UnknownTypeCode` is recorded and msg_variant and msg_sub
stay. -/
def Obligations.UnknownTypeCodeIsRecorded : Prop :=
  ∀ (ty : Byte) (s : State), exec (.unknownType ty) s =
    .next { s with msgAny := true, msgErr := .unknownTypeCode, events := { s.events with msg := true } } ∧
  (∀ (m : TypeMap) (u : Byte), decodeType m u = .unknownType u ↔ m.entry u = none)

/-- The default P_TYPE_MAP satisfies every constraint of 43_dispatch.md R202. -/
def Obligations.DefaultTypeMapIsAdmissible : Prop := defaultTypeMap.Admissible

/-! ### Status outputs -/

/-- The derived status outputs (44_status_unpack.md R241, R242, R244, R245, R247 to R251, R253): none while there is no
snapshot, and otherwise the stated bits of the stated bytes, with an absent pump at 0. -/
def Obligations.StatusOutputsAreTheStatedBits : Prop :=
  ∀ (pf : CapMap) (s : State),
    (s.stValid = false → statusOutputs pf s = none) ∧
    (s.stValid = true → ∃ o, statusOutputs pf s = some o ∧
      o.priming.toNat = (s.stSnap.read 1).toNat % 2 ∧
      o.tempRaw = s.stSnap.read 2 ∧ o.hour = s.stSnap.read 3 ∧ o.minute = s.stSnap.read 4 ∧
      o.heatMode.toNat = (s.stSnap.read 5).toNat % 4 ∧
      o.tempScale.toNat = (s.stSnap.read 9).toNat % 2 ∧
      o.clock24.toNat = (s.stSnap.read 9).toNat / 2 % 2 ∧
      o.filterMode.toNat = (s.stSnap.read 9).toNat / 4 % 4 ∧
      o.tempRange.toNat = (s.stSnap.read 10).toNat / 8 % 2 ∧
      o.heating.toNat = (s.stSnap.read 10).toNat / 16 % 4 ∧
      (o.heatingActive = true ↔ (s.stSnap.read 10).toNat / 16 % 4 ≠ 0) ∧
      o.setTempRaw = s.stSnap.read 20 ∧
      ∀ k : Fin 6, (o.pump.get k).toNat =
        if s.cfgPumpPresent.getLsbD k.val = false then 0
        else if k.val < 4 then (s.stSnap.read 11).toNat / 4 ^ k.val % 4
        else (s.stSnap.read 12).toNat / 4 ^ (k.val - 4) % 4)

/-- The capability outputs (44_status_unpack.md R255), for every admissible P_CAP_FIELD (R256): the item's bits where
it is enabled, otherwise 0; with cfg_cap_en = 0 every item is 0 whatever P_CAP_FIELD holds. -/
def Obligations.CapabilityOutputsAreGated : Prop :=
  (∀ (pf : CapMap) (s : State) (j : Fin 7), pf.Admissible →
    (stCap pf s j).toNat =
      if s.cfgCapEn.getLsbD j.val = false then 0
      else (s.stSnap.read (pf.get j).byte).toNat / 2 ^ (pf.get j).lsb % 2 ^ (pf.get j).width) ∧
  (∀ (pf : CapMap) (s : State) (j : Fin 7), s.cfgCapEn = 0#7 → stCap pf s j = 0#8) ∧
  (∀ (pf : CapMap) (s : State) (o : StatusOutputs) (j : Fin 7), statusOutputs pf s = some o →
    o.cap.get j = stCap pf s j)

/-- A temperature is exact (44_status_unpack.md R246): half-degree units in Celsius, whole units in Fahrenheit; both
temperatures use the one scale bit (R253). That scale bit 1 is Celsius is general knowledge (G5, log entry 9). -/
def Obligations.TemperaturesAreExact : Prop :=
  ∀ (pf : CapMap) (s : State) (o : StatusOutputs), statusOutputs pf s = some o →
    ((s.stSnap.read 9).getLsbD 0 = true →
      o.temperature.degrees * 2 = ((s.stSnap.read 2).toNat : Rat) ∧
      o.setTemperature.degrees * 2 = ((s.stSnap.read 20).toNat : Rat)) ∧
    ((s.stSnap.read 9).getLsbD 0 = false →
      o.temperature.degrees = ((s.stSnap.read 2).toNat : Rat) ∧
      o.setTemperature.degrees = ((s.stSnap.read 20).toNat : Rat))

/-! ### Reset -/

/-- `RESET` (70_reset_and_hazards.md R310): every element the rule gives a value for holds it afterwards, no event is
emitted, and the parameters stay; a cycle with rst = 1 does that and nothing more, whatever its other ports present. -/
def Obligations.ResetLoadsEveryStatedValue : Prop :=
  ∀ s : State, ∃ t, exec .reset s = .next t ∧
    t.crcReg = 0x02#8 ∧ crcOut t = 0x00#8 ∧ t.rxState = .hunt ∧ t.rxCnt = 0 ∧ t.rxNeed = 0#8 ∧ t.rxLastb = 0#8 ∧
    t.frmAny = false ∧ t.frmSeq = 0#8 ∧ t.frmErr = .none ∧ t.frmCnt = 0 ∧
    t.frmCh = 0#8 ∧ t.frmFlag = 0#8 ∧ t.frmType = 0#8 ∧ t.frmPlen = 0 ∧ t.frmCrcRx = 0#8 ∧ t.frmCrcCalc = 0#8 ∧
    t.msgAny = false ∧ t.msgErr = .none ∧ variantNum t.msgVariant = 0#5 ∧ subVariantNum t.msgSub = 0#3 ∧
    t.stValid = false ∧ t.stChanged = false ∧ (∀ pf, statusOutputs pf t = none) ∧
    t.txIdx = 0 ∧ t.txLen = 0 ∧ t.txErr = .none ∧ txBusy t = false ∧ txValid t = false ∧ t.txPlW = 0#256 ∧
    t.cfgPumpPresent = 0#6 ∧ t.cfgCapEn = 0#7 ∧ t.events = {} ∧ t.params = s.params ∧
    ∀ (c : CycleInput) (rest : List CycleInput), s.inputs = c :: rest → c.rst = true →
      step s = .next { t with inputs := rest }

/-- A reset cycle leaves the state of `State.reset`, whatever else its ports present (70_reset_and_hazards.md R310 to
R312), with the parameters kept, the later inputs still to come and the count of resets advanced. The buffers' contents in
it are the model's choice (log entry 1), and so is that count, which selects the draw of I1 (log entry 6). -/
def Obligations.ResetCycleLeavesTheResetState : Prop :=
  ∀ (s : State) (c : CycleInput) (rest : List CycleInput), s.inputs = c :: rest → c.rst = true →
    step s = .next { State.reset with params := s.params, inputs := rest, resets := s.resets + 1 }

/-! ### The whole machine -/

/-- The invariant holds in the reset state. -/
def Obligations.InvariantHoldsAtReset : Prop := State.reset.Inv

/-- Every step keeps the invariant: the buffers' canonical form and ranges (20_memory.md R60), the ranges of the
counters (10_state.md R25, R32, R34, R42), the codes each result register can hold (R31, R38, R45), and the relations
of the candidate in progress (41_frame_rx.md R144 to R152). -/
def Obligations.EveryStepKeepsTheInvariant : Prop :=
  ∀ s t : State, s.Inv → step s = .next t → t.Inv

/-- No step writes a parameter (00_scope.md R6, 70_reset_and_hazards.md R310). That they stand in State is the model's
choice (log entry 2). -/
def Obligations.ParametersNeverChange : Prop :=
  ∀ (k : Nat) (s t : State), Host.Core.run Sys2Proof.core k s = .next t → t.params = s.params

/-- The block keeps running after every error (60_exceptions.md R282, R287): under the invariant a step answers a next
state, but for the one model fault the rules raise, and that only on a `TX_START` that would send a staged byte never
written since reset. -/
def Obligations.OnlyAnUnwrittenPayloadStopsTheMachine : Prop :=
  ∀ s : State, s.Inv →
    (∃ t, step s = .next t) ∨
    (step s = .fault .unwrittenPayload ∧ ∃ (c : CycleInput) (rest : List CycleInput) (ch ty n : Byte),
      s.inputs = c :: rest ∧ c.rst = false ∧ c.cmdValid = true ∧ decodeCommand c.cmd = .ok (.txStart ch ty n) ∧
      n.toNat ≤ 250 ∧ ∃ i : Nat, i < n.toNat ∧ s.txPlW.getLsbD i = false)

/-- `LengthError` is never reported in SCAN mode: a completed candidate has L + 2 bytes, L its length byte
(41_frame_rx.md R148). -/
def Obligations.ScannerNeverReportsLengthError : Prop :=
  ∀ s t : State, s.Inv → s.params.rxSource = .scan → step s = .next t → t.events.frame = true →
    t.frmErr ≠ .lengthError ∧ t.frmCnt = (t.rxBuf.read 1).toNat + 2

/-- The receive sub-step and the host command touch disjoint state, so their order is unobservable (00_scope.md R13,
70_reset_and_hazards.md R324): run in either order they lead to the same state. -/
def Obligations.ReceiveAndCommandCommute : Prop :=
  ∀ (i j : Instr) (s a b : State), instrPart i = .receiver → isCommand j = true →
    exec i s = .next a → exec j s = .next b → ∃ t, exec j a = .next t ∧ exec i b = .next t

/-- Which operations write which elements (10_state.md R47, R49): an operation of one part leaves every element of the
others as it was, and none but RESET writes the model's own fields (log entries 2, 3 and 6). -/
def Obligations.EachPartWritesOnlyItsOwnElements : Prop :=
  ∀ (i : Instr) (s t : State), exec i s = .next t → instrPart i ≠ .reset →
    t.params = s.params ∧ t.inputs = s.inputs ∧ t.resets = s.resets ∧
    (instrPart i ≠ .crc → t.crcReg = s.crcReg) ∧
    (instrPart i ≠ .config → t.cfgPumpPresent = s.cfgPumpPresent ∧ t.cfgCapEn = s.cfgCapEn) ∧
    (instrPart i ≠ .transmitter → t.txPl = s.txPl ∧ t.txPlW = s.txPlW ∧ t.txFrame = s.txFrame ∧
      t.txLen = s.txLen ∧ t.txIdx = s.txIdx ∧ t.txErr = s.txErr) ∧
    (instrPart i ≠ .receiver → t.rxState = s.rxState ∧ t.rxCnt = s.rxCnt ∧ t.rxNeed = s.rxNeed ∧
      t.rxBuf = s.rxBuf ∧ t.rxLastb = s.rxLastb ∧ t.frmAny = s.frmAny ∧ t.frmSeq = s.frmSeq ∧ t.frmErr = s.frmErr ∧
      t.frmCnt = s.frmCnt ∧ t.frmCh = s.frmCh ∧ t.frmFlag = s.frmFlag ∧ t.frmType = s.frmType ∧
      t.frmPlen = s.frmPlen ∧ t.frmPayload = s.frmPayload ∧ t.frmCrcRx = s.frmCrcRx ∧ t.frmCrcCalc = s.frmCrcCalc) ∧
    (instrPart i ≠ .receiver → instrPart i ≠ .dispatcher → t.msgAny = s.msgAny ∧ t.msgErr = s.msgErr ∧
      t.msgVariant = s.msgVariant ∧ t.msgSub = s.msgSub ∧ t.stValid = s.stValid ∧ t.stSnap = s.stSnap ∧
      t.stChanged = s.stChanged)

/-- The events of a cycle tell what its registers did (10_state.md R30; 60_exceptions.md R284 to R286): in a cycle
without reset frm_seq advances, modulo 256, exactly when `ev_frame` is emitted; `ev_msg` is emitted exactly with a good
`ev_frame`; `ev_status` only with a matched `ev_msg`; and without `ev_frame` no frame result register changes, without
`ev_msg` no message register, without `ev_status` no snapshot register. -/
def Obligations.EventsTellWhatTheCycleDid : Prop :=
  ∀ (s t : State), step s = .next t → (∀ c rest, s.inputs = c :: rest → c.rst = false) →
    (t.events.frame = true → t.frmSeq.toNat = (s.frmSeq.toNat + 1) % 256 ∧ t.frmAny = true) ∧
    (t.events.frame = false → t.frmSeq = s.frmSeq ∧ t.frmAny = s.frmAny ∧ t.frmErr = s.frmErr ∧ t.frmCnt = s.frmCnt ∧
      t.frmCh = s.frmCh ∧ t.frmFlag = s.frmFlag ∧ t.frmType = s.frmType ∧ t.frmPlen = s.frmPlen ∧
      t.frmPayload = s.frmPayload ∧ t.frmCrcRx = s.frmCrcRx ∧ t.frmCrcCalc = s.frmCrcCalc ∧ t.events.msg = false) ∧
    (t.events.msg = true ↔ t.events.frame = true ∧ t.frmErr = .none) ∧
    (t.events.msg = false → t.msgAny = s.msgAny ∧ t.msgErr = s.msgErr ∧ t.msgVariant = s.msgVariant ∧ t.msgSub = s.msgSub) ∧
    (t.events.status = true → t.events.msg = true ∧ t.msgErr = .none ∧ t.stValid = true) ∧
    (t.events.status = false → t.stSnap = s.stSnap ∧ t.stValid = s.stValid ∧ t.stChanged = s.stChanged)

/-- Events are not latched (60_exceptions.md R285, R286): what the previous cycle emitted has no effect on a cycle or on
its events. -/
def Obligations.EventsLastOneCycle : Prop :=
  ∀ (s : State) (e : Events), step { s with events := e } = step s

/-- No rule's result depends on what the spec leaves unspecified (70_reset_and_hazards.md R310; I1, I3): from two states
that differ at most in unspecified buffer bytes, a cycle leads to two such states, or to the same fault. So the byte
that log entry 1 chooses is never seen. -/
def Obligations.UnspecifiedBytesNeverMatter : Prop :=
  ∀ s t : State, s.Inv → s.params.typeMap.Admissible → SameDefined s t → SameAnswer (step s) (step t)

/-- What the host sees (30_encoding.md R84, 42_frame_tx.md R187; 10_state.md R35, R41, R44): tx_data is tx_frame[tx_idx]
while tx_valid = 1, and a buffer read of a specified byte answers that byte; and two states that differ at most in
unspecified bytes show the same outputs, for every draw of the values the spec leaves open (44_status_unpack.md R242;
I1, I3, I5, I6; log entry 6). -/
def Obligations.OutputsShowOnlyDefinedBytes : Prop :=
  (∀ (s : State) (draw : Byte), txValid s = true → txData draw s = s.txFrame.read s.txIdx) ∧
  (∀ (s : State) (draw : Byte) (i : Nat),
    (i < s.frmPlen → hostReadPayload draw i s = s.frmPayload.read i) ∧
    (s.stValid = true → i < 31 → hostReadSnapshot i s = s.stSnap.read i) ∧
    (s.txPlW.getLsbD i = true → hostReadStaging i s = s.txPl.read i)) ∧
  (∀ (s t : State) (pf : CapMap) (draw : Byte) (i : Nat), SameDefined s t → pf.Admissible →
    crcOut s = crcOut t ∧ txValid s = txValid t ∧ txData draw s = txData draw t ∧
    hostReadPayload draw i s = hostReadPayload draw i t ∧
    hostReadSnapshot i s = hostReadSnapshot i t ∧
    hostReadStaging i s = hostReadStaging i t ∧
    statusOutputs pf s = statusOutputs pf t)

/-- A read of an output can be repeated with the same result until a cycle writes its element (20_memory.md R66), and so
also where its byte is the one a reset drew (I1, log entry 6): in a cycle without reset the specified payload bytes stay
without `ev_frame`, the snapshot without a changed `ev_status`, a staged byte unless a `TX_WRITE` writes it, crc_out
without a CRC command, and tx_valid and tx_data (at one draw, I6) without a pop or a `TX_START` accepted. -/
def Obligations.HostReadsCanBeRepeated : Prop :=
  ∀ (s t : State) (i : Nat), step s = .next t → (∀ c rest, s.inputs = c :: rest → c.rst = false) →
    (t.events.frame = false → ∀ draw, hostReadPayload draw i t = hostReadPayload draw i s) ∧
    (t.events.status = false ∨ t.stChanged = false → hostReadSnapshot i t = hostReadSnapshot i s) ∧
    ((∀ c rest j b, s.inputs = c :: rest → c.cmdValid = true → decodeCommand c.cmd = .ok (.txWrite j b) → j.toNat ≠ i) →
      hostReadStaging i t = hostReadStaging i s) ∧
    ((∀ c rest j, s.inputs = c :: rest → c.cmdValid = true → decodeCommand c.cmd = .ok j → instrPart j ≠ .crc) →
      crcOut t = crcOut s) ∧
    (t.events.txByte = none → t.events.txStart = false →
      txValid t = txValid s ∧ ∀ draw, txData draw t = txData draw s)

/-- A cycle with rx_valid = 1 takes its byte and changes receive state (20_memory.md R66; 30_encoding.md section 2: the
block takes a byte in every such cycle), exactly but for the bytes that the rules of 41_frame_rx.md leave without effect:
a byte other than 0x7E in HUNT (R144), 0x7E in GOT_START (R145), and in SPAN mode, past the 258 at which the count
saturates, an unmarked byte equal to the one before (R151). R66's words name no exception (how they are read: DEDUCED, log entry 13). -/
def Obligations.ReceivedBytesChangeReceiveState : Prop :=
  ∀ (s t : State) (c : CycleInput) (rest : List CycleInput), s.inputs = c :: rest → c.rst = false → c.rxValid = true →
    step s = .next t →
    t.inputs = rest ∧
    (SameReceiveState s t ↔
      (s.params.rxSource = .scan ∧ s.rxState = .hunt ∧ c.rxData ≠ 0x7E#8) ∨
      (s.params.rxSource = .scan ∧ s.rxState = .gotStart ∧ c.rxData = 0x7E#8) ∨
      (s.params.rxSource = .span ∧ c.rxLast = false ∧ s.rxCnt = 258 ∧ s.rxLastb = c.rxData))
end

