-- ==== Sys2Proof/Laws/Crc.lean ====
section
/-! SUPPORT. The laws of the CRC-8 functions. -/

namespace Sys2Proof.Machine

theorem crcStep_eq (c b : Byte) : crcStep c b = crcShifts 8 (c ^^^ b) := rfl

/-- Taking in a byte equal to the register clears it. -/
@[simp] theorem crcStep_self (c : Byte) : crcStep c c = 0x00#8 := by
  rw [crcStep_eq, BitVec.xor_self]; rfl

/-- The register after a sequence, from its checksum. -/
theorem crc8_xor (bs : List Byte) : crc8 bs ^^^ Config.crcXorOut = bs.foldl crcStep Config.crcInit := by
  rw [crc8, BitVec.xor_assoc, BitVec.xor_self, BitVec.xor_zero]

theorem crc8_nil : crc8 [] = 0x00#8 := by decide

end Sys2Proof.Machine
end

