-- ==== Sys2Proof/Laws/State.lean ====
section
/-! SUPPORT. What each named update of the state leaves as it was, one lemma per field, so that no proof unfolds an
update; and the fields it writes. -/

namespace Sys2Proof.Machine

/-! ### rearm -/

@[simp] theorem rearm_rxState (s : State) : (rearm s).rxState = .hunt := rfl
@[simp] theorem rearm_rxCnt (s : State) : (rearm s).rxCnt = 0 := rfl
@[simp] theorem rearm_rxNeed (s : State) : (rearm s).rxNeed = 0#8 := rfl
@[simp] theorem rearm_crcReg (s : State) : (rearm s).crcReg = s.crcReg := rfl
@[simp] theorem rearm_rxBuf (s : State) : (rearm s).rxBuf = s.rxBuf := rfl
@[simp] theorem rearm_rxLastb (s : State) : (rearm s).rxLastb = s.rxLastb := rfl
@[simp] theorem rearm_frmAny (s : State) : (rearm s).frmAny = s.frmAny := rfl
@[simp] theorem rearm_frmSeq (s : State) : (rearm s).frmSeq = s.frmSeq := rfl
@[simp] theorem rearm_frmErr (s : State) : (rearm s).frmErr = s.frmErr := rfl
@[simp] theorem rearm_frmCnt (s : State) : (rearm s).frmCnt = s.frmCnt := rfl
@[simp] theorem rearm_frmCh (s : State) : (rearm s).frmCh = s.frmCh := rfl
@[simp] theorem rearm_frmFlag (s : State) : (rearm s).frmFlag = s.frmFlag := rfl
@[simp] theorem rearm_frmType (s : State) : (rearm s).frmType = s.frmType := rfl
@[simp] theorem rearm_frmPlen (s : State) : (rearm s).frmPlen = s.frmPlen := rfl
@[simp] theorem rearm_frmPayload (s : State) : (rearm s).frmPayload = s.frmPayload := rfl
@[simp] theorem rearm_frmCrcRx (s : State) : (rearm s).frmCrcRx = s.frmCrcRx := rfl
@[simp] theorem rearm_frmCrcCalc (s : State) : (rearm s).frmCrcCalc = s.frmCrcCalc := rfl
@[simp] theorem rearm_msgAny (s : State) : (rearm s).msgAny = s.msgAny := rfl
@[simp] theorem rearm_msgErr (s : State) : (rearm s).msgErr = s.msgErr := rfl
@[simp] theorem rearm_msgVariant (s : State) : (rearm s).msgVariant = s.msgVariant := rfl
@[simp] theorem rearm_msgSub (s : State) : (rearm s).msgSub = s.msgSub := rfl
@[simp] theorem rearm_stValid (s : State) : (rearm s).stValid = s.stValid := rfl
@[simp] theorem rearm_stSnap (s : State) : (rearm s).stSnap = s.stSnap := rfl
@[simp] theorem rearm_stChanged (s : State) : (rearm s).stChanged = s.stChanged := rfl
@[simp] theorem rearm_txPl (s : State) : (rearm s).txPl = s.txPl := rfl
@[simp] theorem rearm_txPlW (s : State) : (rearm s).txPlW = s.txPlW := rfl
@[simp] theorem rearm_txFrame (s : State) : (rearm s).txFrame = s.txFrame := rfl
@[simp] theorem rearm_txLen (s : State) : (rearm s).txLen = s.txLen := rfl
@[simp] theorem rearm_txIdx (s : State) : (rearm s).txIdx = s.txIdx := rfl
@[simp] theorem rearm_txErr (s : State) : (rearm s).txErr = s.txErr := rfl
@[simp] theorem rearm_cfgPumpPresent (s : State) : (rearm s).cfgPumpPresent = s.cfgPumpPresent := rfl
@[simp] theorem rearm_cfgCapEn (s : State) : (rearm s).cfgCapEn = s.cfgCapEn := rfl
@[simp] theorem rearm_events (s : State) : (rearm s).events = s.events := rfl
@[simp] theorem rearm_params (s : State) : (rearm s).params = s.params := rfl
@[simp] theorem rearm_inputs (s : State) : (rearm s).inputs = s.inputs := rfl
@[simp] theorem rearm_resets (s : State) : (rearm s).resets = s.resets := rfl

/-! ### beginCycle -/

@[simp] theorem beginCycle_events (r : List CycleInput) (s : State) : (beginCycle r s).events = {} := rfl
@[simp] theorem beginCycle_inputs (r : List CycleInput) (s : State) : (beginCycle r s).inputs = r := rfl
@[simp] theorem beginCycle_resets (r : List CycleInput) (s : State) : (beginCycle r s).resets = s.resets := rfl
@[simp] theorem beginCycle_crcReg (r : List CycleInput) (s : State) : (beginCycle r s).crcReg = s.crcReg := rfl
@[simp] theorem beginCycle_rxState (r : List CycleInput) (s : State) : (beginCycle r s).rxState = s.rxState := rfl
@[simp] theorem beginCycle_rxCnt (r : List CycleInput) (s : State) : (beginCycle r s).rxCnt = s.rxCnt := rfl
@[simp] theorem beginCycle_rxNeed (r : List CycleInput) (s : State) : (beginCycle r s).rxNeed = s.rxNeed := rfl
@[simp] theorem beginCycle_rxBuf (r : List CycleInput) (s : State) : (beginCycle r s).rxBuf = s.rxBuf := rfl
@[simp] theorem beginCycle_rxLastb (r : List CycleInput) (s : State) : (beginCycle r s).rxLastb = s.rxLastb := rfl
@[simp] theorem beginCycle_frmAny (r : List CycleInput) (s : State) : (beginCycle r s).frmAny = s.frmAny := rfl
@[simp] theorem beginCycle_frmSeq (r : List CycleInput) (s : State) : (beginCycle r s).frmSeq = s.frmSeq := rfl
@[simp] theorem beginCycle_frmErr (r : List CycleInput) (s : State) : (beginCycle r s).frmErr = s.frmErr := rfl
@[simp] theorem beginCycle_frmCnt (r : List CycleInput) (s : State) : (beginCycle r s).frmCnt = s.frmCnt := rfl
@[simp] theorem beginCycle_frmCh (r : List CycleInput) (s : State) : (beginCycle r s).frmCh = s.frmCh := rfl
@[simp] theorem beginCycle_frmFlag (r : List CycleInput) (s : State) : (beginCycle r s).frmFlag = s.frmFlag := rfl
@[simp] theorem beginCycle_frmType (r : List CycleInput) (s : State) : (beginCycle r s).frmType = s.frmType := rfl
@[simp] theorem beginCycle_frmPlen (r : List CycleInput) (s : State) : (beginCycle r s).frmPlen = s.frmPlen := rfl
@[simp] theorem beginCycle_frmPayload (r : List CycleInput) (s : State) : (beginCycle r s).frmPayload = s.frmPayload := rfl
@[simp] theorem beginCycle_frmCrcRx (r : List CycleInput) (s : State) : (beginCycle r s).frmCrcRx = s.frmCrcRx := rfl
@[simp] theorem beginCycle_frmCrcCalc (r : List CycleInput) (s : State) : (beginCycle r s).frmCrcCalc = s.frmCrcCalc := rfl
@[simp] theorem beginCycle_msgAny (r : List CycleInput) (s : State) : (beginCycle r s).msgAny = s.msgAny := rfl
@[simp] theorem beginCycle_msgErr (r : List CycleInput) (s : State) : (beginCycle r s).msgErr = s.msgErr := rfl
@[simp] theorem beginCycle_msgVariant (r : List CycleInput) (s : State) : (beginCycle r s).msgVariant = s.msgVariant := rfl
@[simp] theorem beginCycle_msgSub (r : List CycleInput) (s : State) : (beginCycle r s).msgSub = s.msgSub := rfl
@[simp] theorem beginCycle_stValid (r : List CycleInput) (s : State) : (beginCycle r s).stValid = s.stValid := rfl
@[simp] theorem beginCycle_stSnap (r : List CycleInput) (s : State) : (beginCycle r s).stSnap = s.stSnap := rfl
@[simp] theorem beginCycle_stChanged (r : List CycleInput) (s : State) : (beginCycle r s).stChanged = s.stChanged := rfl
@[simp] theorem beginCycle_txPl (r : List CycleInput) (s : State) : (beginCycle r s).txPl = s.txPl := rfl
@[simp] theorem beginCycle_txPlW (r : List CycleInput) (s : State) : (beginCycle r s).txPlW = s.txPlW := rfl
@[simp] theorem beginCycle_txFrame (r : List CycleInput) (s : State) : (beginCycle r s).txFrame = s.txFrame := rfl
@[simp] theorem beginCycle_txLen (r : List CycleInput) (s : State) : (beginCycle r s).txLen = s.txLen := rfl
@[simp] theorem beginCycle_txIdx (r : List CycleInput) (s : State) : (beginCycle r s).txIdx = s.txIdx := rfl
@[simp] theorem beginCycle_txErr (r : List CycleInput) (s : State) : (beginCycle r s).txErr = s.txErr := rfl
@[simp] theorem beginCycle_cfgPumpPresent (r : List CycleInput) (s : State) : (beginCycle r s).cfgPumpPresent = s.cfgPumpPresent := rfl
@[simp] theorem beginCycle_cfgCapEn (r : List CycleInput) (s : State) : (beginCycle r s).cfgCapEn = s.cfgCapEn := rfl
@[simp] theorem beginCycle_params (r : List CycleInput) (s : State) : (beginCycle r s).params = s.params := rfl

/-! ### raiseError -/

@[simp] theorem raiseError_crcReg (e : ErrCode) (s : State) : (raiseError e s).crcReg = s.crcReg := by cases e <;> rfl
@[simp] theorem raiseError_rxState (e : ErrCode) (s : State) : (raiseError e s).rxState = s.rxState := by cases e <;> rfl
@[simp] theorem raiseError_rxCnt (e : ErrCode) (s : State) : (raiseError e s).rxCnt = s.rxCnt := by cases e <;> rfl
@[simp] theorem raiseError_rxNeed (e : ErrCode) (s : State) : (raiseError e s).rxNeed = s.rxNeed := by cases e <;> rfl
@[simp] theorem raiseError_rxBuf (e : ErrCode) (s : State) : (raiseError e s).rxBuf = s.rxBuf := by cases e <;> rfl
@[simp] theorem raiseError_rxLastb (e : ErrCode) (s : State) : (raiseError e s).rxLastb = s.rxLastb := by cases e <;> rfl
@[simp] theorem raiseError_frmAny (e : ErrCode) (s : State) : (raiseError e s).frmAny = s.frmAny := by cases e <;> rfl
@[simp] theorem raiseError_frmSeq (e : ErrCode) (s : State) : (raiseError e s).frmSeq = s.frmSeq := by cases e <;> rfl
@[simp] theorem raiseError_frmCnt (e : ErrCode) (s : State) : (raiseError e s).frmCnt = s.frmCnt := by cases e <;> rfl
@[simp] theorem raiseError_frmCh (e : ErrCode) (s : State) : (raiseError e s).frmCh = s.frmCh := by cases e <;> rfl
@[simp] theorem raiseError_frmFlag (e : ErrCode) (s : State) : (raiseError e s).frmFlag = s.frmFlag := by cases e <;> rfl
@[simp] theorem raiseError_frmType (e : ErrCode) (s : State) : (raiseError e s).frmType = s.frmType := by cases e <;> rfl
@[simp] theorem raiseError_frmPlen (e : ErrCode) (s : State) : (raiseError e s).frmPlen = s.frmPlen := by cases e <;> rfl
@[simp] theorem raiseError_frmPayload (e : ErrCode) (s : State) : (raiseError e s).frmPayload = s.frmPayload := by cases e <;> rfl
@[simp] theorem raiseError_frmCrcRx (e : ErrCode) (s : State) : (raiseError e s).frmCrcRx = s.frmCrcRx := by cases e <;> rfl
@[simp] theorem raiseError_frmCrcCalc (e : ErrCode) (s : State) : (raiseError e s).frmCrcCalc = s.frmCrcCalc := by cases e <;> rfl
@[simp] theorem raiseError_msgAny (e : ErrCode) (s : State) : (raiseError e s).msgAny = s.msgAny := by cases e <;> rfl
@[simp] theorem raiseError_msgVariant (e : ErrCode) (s : State) : (raiseError e s).msgVariant = s.msgVariant := by cases e <;> rfl
@[simp] theorem raiseError_msgSub (e : ErrCode) (s : State) : (raiseError e s).msgSub = s.msgSub := by cases e <;> rfl
@[simp] theorem raiseError_stValid (e : ErrCode) (s : State) : (raiseError e s).stValid = s.stValid := by cases e <;> rfl
@[simp] theorem raiseError_stSnap (e : ErrCode) (s : State) : (raiseError e s).stSnap = s.stSnap := by cases e <;> rfl
@[simp] theorem raiseError_stChanged (e : ErrCode) (s : State) : (raiseError e s).stChanged = s.stChanged := by cases e <;> rfl
@[simp] theorem raiseError_txPl (e : ErrCode) (s : State) : (raiseError e s).txPl = s.txPl := by cases e <;> rfl
@[simp] theorem raiseError_txPlW (e : ErrCode) (s : State) : (raiseError e s).txPlW = s.txPlW := by cases e <;> rfl
@[simp] theorem raiseError_txFrame (e : ErrCode) (s : State) : (raiseError e s).txFrame = s.txFrame := by cases e <;> rfl
@[simp] theorem raiseError_txLen (e : ErrCode) (s : State) : (raiseError e s).txLen = s.txLen := by cases e <;> rfl
@[simp] theorem raiseError_txIdx (e : ErrCode) (s : State) : (raiseError e s).txIdx = s.txIdx := by cases e <;> rfl
@[simp] theorem raiseError_cfgPumpPresent (e : ErrCode) (s : State) : (raiseError e s).cfgPumpPresent = s.cfgPumpPresent := by cases e <;> rfl
@[simp] theorem raiseError_cfgCapEn (e : ErrCode) (s : State) : (raiseError e s).cfgCapEn = s.cfgCapEn := by cases e <;> rfl
@[simp] theorem raiseError_params (e : ErrCode) (s : State) : (raiseError e s).params = s.params := by cases e <;> rfl
@[simp] theorem raiseError_inputs (e : ErrCode) (s : State) : (raiseError e s).inputs = s.inputs := by cases e <;> rfl
@[simp] theorem raiseError_resets (e : ErrCode) (s : State) : (raiseError e s).resets = s.resets := by cases e <;> rfl

/-! ### countCandidate -/

@[simp] theorem countCandidate_frmAny (s : State) : (countCandidate s).frmAny = true := rfl
@[simp] theorem countCandidate_frmSeq (s : State) : (countCandidate s).frmSeq = s.frmSeq + 1#8 := rfl
@[simp] theorem countCandidate_frmCnt (s : State) : (countCandidate s).frmCnt = s.rxCnt := rfl
@[simp] theorem countCandidate_crcReg (s : State) : (countCandidate s).crcReg = s.crcReg := rfl
@[simp] theorem countCandidate_rxState (s : State) : (countCandidate s).rxState = s.rxState := rfl
@[simp] theorem countCandidate_rxCnt (s : State) : (countCandidate s).rxCnt = s.rxCnt := rfl
@[simp] theorem countCandidate_rxNeed (s : State) : (countCandidate s).rxNeed = s.rxNeed := rfl
@[simp] theorem countCandidate_rxBuf (s : State) : (countCandidate s).rxBuf = s.rxBuf := rfl
@[simp] theorem countCandidate_rxLastb (s : State) : (countCandidate s).rxLastb = s.rxLastb := rfl
@[simp] theorem countCandidate_frmErr (s : State) : (countCandidate s).frmErr = s.frmErr := rfl
@[simp] theorem countCandidate_frmCh (s : State) : (countCandidate s).frmCh = s.frmCh := rfl
@[simp] theorem countCandidate_frmFlag (s : State) : (countCandidate s).frmFlag = s.frmFlag := rfl
@[simp] theorem countCandidate_frmType (s : State) : (countCandidate s).frmType = s.frmType := rfl
@[simp] theorem countCandidate_frmPlen (s : State) : (countCandidate s).frmPlen = s.frmPlen := rfl
@[simp] theorem countCandidate_frmPayload (s : State) : (countCandidate s).frmPayload = s.frmPayload := rfl
@[simp] theorem countCandidate_frmCrcRx (s : State) : (countCandidate s).frmCrcRx = s.frmCrcRx := rfl
@[simp] theorem countCandidate_frmCrcCalc (s : State) : (countCandidate s).frmCrcCalc = s.frmCrcCalc := rfl
@[simp] theorem countCandidate_msgAny (s : State) : (countCandidate s).msgAny = s.msgAny := rfl
@[simp] theorem countCandidate_msgErr (s : State) : (countCandidate s).msgErr = s.msgErr := rfl
@[simp] theorem countCandidate_msgVariant (s : State) : (countCandidate s).msgVariant = s.msgVariant := rfl
@[simp] theorem countCandidate_msgSub (s : State) : (countCandidate s).msgSub = s.msgSub := rfl
@[simp] theorem countCandidate_stValid (s : State) : (countCandidate s).stValid = s.stValid := rfl
@[simp] theorem countCandidate_stSnap (s : State) : (countCandidate s).stSnap = s.stSnap := rfl
@[simp] theorem countCandidate_stChanged (s : State) : (countCandidate s).stChanged = s.stChanged := rfl
@[simp] theorem countCandidate_txPl (s : State) : (countCandidate s).txPl = s.txPl := rfl
@[simp] theorem countCandidate_txPlW (s : State) : (countCandidate s).txPlW = s.txPlW := rfl
@[simp] theorem countCandidate_txFrame (s : State) : (countCandidate s).txFrame = s.txFrame := rfl
@[simp] theorem countCandidate_txLen (s : State) : (countCandidate s).txLen = s.txLen := rfl
@[simp] theorem countCandidate_txIdx (s : State) : (countCandidate s).txIdx = s.txIdx := rfl
@[simp] theorem countCandidate_txErr (s : State) : (countCandidate s).txErr = s.txErr := rfl
@[simp] theorem countCandidate_cfgPumpPresent (s : State) : (countCandidate s).cfgPumpPresent = s.cfgPumpPresent := rfl
@[simp] theorem countCandidate_cfgCapEn (s : State) : (countCandidate s).cfgCapEn = s.cfgCapEn := rfl
@[simp] theorem countCandidate_events (s : State) : (countCandidate s).events = s.events := rfl
@[simp] theorem countCandidate_params (s : State) : (countCandidate s).params = s.params := rfl
@[simp] theorem countCandidate_inputs (s : State) : (countCandidate s).inputs = s.inputs := rfl
@[simp] theorem countCandidate_resets (s : State) : (countCandidate s).resets = s.resets := rfl

/-! ### latchFrame -/

@[simp] theorem latchFrame_frmErr (f : GoodFrame) (s : State) : (latchFrame f s).frmErr = .none := rfl
@[simp] theorem latchFrame_frmCrcRx (f : GoodFrame) (s : State) : (latchFrame f s).frmCrcRx = f.crc := rfl
@[simp] theorem latchFrame_frmCrcCalc (f : GoodFrame) (s : State) : (latchFrame f s).frmCrcCalc = f.crc := rfl
@[simp] theorem latchFrame_frmCh (f : GoodFrame) (s : State) : (latchFrame f s).frmCh = f.ch := rfl
@[simp] theorem latchFrame_frmFlag (f : GoodFrame) (s : State) : (latchFrame f s).frmFlag = f.flag := rfl
@[simp] theorem latchFrame_frmType (f : GoodFrame) (s : State) : (latchFrame f s).frmType = f.type := rfl
@[simp] theorem latchFrame_frmPlen (f : GoodFrame) (s : State) : (latchFrame f s).frmPlen = f.payload.length := rfl
@[simp] theorem latchFrame_frmPayload (f : GoodFrame) (s : State) :
    (latchFrame f s).frmPayload = s.frmPayload.writeSlice 0 f.payload := rfl
@[simp] theorem latchFrame_events (f : GoodFrame) (s : State) :
    (latchFrame f s).events = { s.events with frame := true } := rfl
@[simp] theorem latchFrame_crcReg (f : GoodFrame) (s : State) : (latchFrame f s).crcReg = s.crcReg := rfl
@[simp] theorem latchFrame_rxState (f : GoodFrame) (s : State) : (latchFrame f s).rxState = s.rxState := rfl
@[simp] theorem latchFrame_rxCnt (f : GoodFrame) (s : State) : (latchFrame f s).rxCnt = s.rxCnt := rfl
@[simp] theorem latchFrame_rxNeed (f : GoodFrame) (s : State) : (latchFrame f s).rxNeed = s.rxNeed := rfl
@[simp] theorem latchFrame_rxBuf (f : GoodFrame) (s : State) : (latchFrame f s).rxBuf = s.rxBuf := rfl
@[simp] theorem latchFrame_rxLastb (f : GoodFrame) (s : State) : (latchFrame f s).rxLastb = s.rxLastb := rfl
@[simp] theorem latchFrame_frmAny (f : GoodFrame) (s : State) : (latchFrame f s).frmAny = s.frmAny := rfl
@[simp] theorem latchFrame_frmSeq (f : GoodFrame) (s : State) : (latchFrame f s).frmSeq = s.frmSeq := rfl
@[simp] theorem latchFrame_frmCnt (f : GoodFrame) (s : State) : (latchFrame f s).frmCnt = s.frmCnt := rfl
@[simp] theorem latchFrame_msgAny (f : GoodFrame) (s : State) : (latchFrame f s).msgAny = s.msgAny := rfl
@[simp] theorem latchFrame_msgErr (f : GoodFrame) (s : State) : (latchFrame f s).msgErr = s.msgErr := rfl
@[simp] theorem latchFrame_msgVariant (f : GoodFrame) (s : State) : (latchFrame f s).msgVariant = s.msgVariant := rfl
@[simp] theorem latchFrame_msgSub (f : GoodFrame) (s : State) : (latchFrame f s).msgSub = s.msgSub := rfl
@[simp] theorem latchFrame_stValid (f : GoodFrame) (s : State) : (latchFrame f s).stValid = s.stValid := rfl
@[simp] theorem latchFrame_stSnap (f : GoodFrame) (s : State) : (latchFrame f s).stSnap = s.stSnap := rfl
@[simp] theorem latchFrame_stChanged (f : GoodFrame) (s : State) : (latchFrame f s).stChanged = s.stChanged := rfl
@[simp] theorem latchFrame_txPl (f : GoodFrame) (s : State) : (latchFrame f s).txPl = s.txPl := rfl
@[simp] theorem latchFrame_txPlW (f : GoodFrame) (s : State) : (latchFrame f s).txPlW = s.txPlW := rfl
@[simp] theorem latchFrame_txFrame (f : GoodFrame) (s : State) : (latchFrame f s).txFrame = s.txFrame := rfl
@[simp] theorem latchFrame_txLen (f : GoodFrame) (s : State) : (latchFrame f s).txLen = s.txLen := rfl
@[simp] theorem latchFrame_txIdx (f : GoodFrame) (s : State) : (latchFrame f s).txIdx = s.txIdx := rfl
@[simp] theorem latchFrame_txErr (f : GoodFrame) (s : State) : (latchFrame f s).txErr = s.txErr := rfl
@[simp] theorem latchFrame_cfgPumpPresent (f : GoodFrame) (s : State) : (latchFrame f s).cfgPumpPresent = s.cfgPumpPresent := rfl
@[simp] theorem latchFrame_cfgCapEn (f : GoodFrame) (s : State) : (latchFrame f s).cfgCapEn = s.cfgCapEn := rfl
@[simp] theorem latchFrame_params (f : GoodFrame) (s : State) : (latchFrame f s).params = s.params := rfl
@[simp] theorem latchFrame_inputs (f : GoodFrame) (s : State) : (latchFrame f s).inputs = s.inputs := rfl
@[simp] theorem latchFrame_resets (f : GoodFrame) (s : State) : (latchFrame f s).resets = s.resets := rfl

/-! ### loadFrame -/

@[simp] theorem loadFrame_txFrame (f : List Byte) (s : State) : (loadFrame f s).txFrame = s.txFrame.writeSlice 0 f := rfl
@[simp] theorem loadFrame_txLen (f : List Byte) (s : State) : (loadFrame f s).txLen = f.length := rfl
@[simp] theorem loadFrame_txIdx (f : List Byte) (s : State) : (loadFrame f s).txIdx = 0 := rfl
@[simp] theorem loadFrame_txErr (f : List Byte) (s : State) : (loadFrame f s).txErr = .none := rfl
@[simp] theorem loadFrame_events (f : List Byte) (s : State) :
    (loadFrame f s).events = { s.events with txStart := true } := rfl
@[simp] theorem loadFrame_crcReg (f : List Byte) (s : State) : (loadFrame f s).crcReg = s.crcReg := rfl
@[simp] theorem loadFrame_rxState (f : List Byte) (s : State) : (loadFrame f s).rxState = s.rxState := rfl
@[simp] theorem loadFrame_rxCnt (f : List Byte) (s : State) : (loadFrame f s).rxCnt = s.rxCnt := rfl
@[simp] theorem loadFrame_rxNeed (f : List Byte) (s : State) : (loadFrame f s).rxNeed = s.rxNeed := rfl
@[simp] theorem loadFrame_rxBuf (f : List Byte) (s : State) : (loadFrame f s).rxBuf = s.rxBuf := rfl
@[simp] theorem loadFrame_rxLastb (f : List Byte) (s : State) : (loadFrame f s).rxLastb = s.rxLastb := rfl
@[simp] theorem loadFrame_frmAny (f : List Byte) (s : State) : (loadFrame f s).frmAny = s.frmAny := rfl
@[simp] theorem loadFrame_frmSeq (f : List Byte) (s : State) : (loadFrame f s).frmSeq = s.frmSeq := rfl
@[simp] theorem loadFrame_frmErr (f : List Byte) (s : State) : (loadFrame f s).frmErr = s.frmErr := rfl
@[simp] theorem loadFrame_frmCnt (f : List Byte) (s : State) : (loadFrame f s).frmCnt = s.frmCnt := rfl
@[simp] theorem loadFrame_frmCh (f : List Byte) (s : State) : (loadFrame f s).frmCh = s.frmCh := rfl
@[simp] theorem loadFrame_frmFlag (f : List Byte) (s : State) : (loadFrame f s).frmFlag = s.frmFlag := rfl
@[simp] theorem loadFrame_frmType (f : List Byte) (s : State) : (loadFrame f s).frmType = s.frmType := rfl
@[simp] theorem loadFrame_frmPlen (f : List Byte) (s : State) : (loadFrame f s).frmPlen = s.frmPlen := rfl
@[simp] theorem loadFrame_frmPayload (f : List Byte) (s : State) : (loadFrame f s).frmPayload = s.frmPayload := rfl
@[simp] theorem loadFrame_frmCrcRx (f : List Byte) (s : State) : (loadFrame f s).frmCrcRx = s.frmCrcRx := rfl
@[simp] theorem loadFrame_frmCrcCalc (f : List Byte) (s : State) : (loadFrame f s).frmCrcCalc = s.frmCrcCalc := rfl
@[simp] theorem loadFrame_msgAny (f : List Byte) (s : State) : (loadFrame f s).msgAny = s.msgAny := rfl
@[simp] theorem loadFrame_msgErr (f : List Byte) (s : State) : (loadFrame f s).msgErr = s.msgErr := rfl
@[simp] theorem loadFrame_msgVariant (f : List Byte) (s : State) : (loadFrame f s).msgVariant = s.msgVariant := rfl
@[simp] theorem loadFrame_msgSub (f : List Byte) (s : State) : (loadFrame f s).msgSub = s.msgSub := rfl
@[simp] theorem loadFrame_stValid (f : List Byte) (s : State) : (loadFrame f s).stValid = s.stValid := rfl
@[simp] theorem loadFrame_stSnap (f : List Byte) (s : State) : (loadFrame f s).stSnap = s.stSnap := rfl
@[simp] theorem loadFrame_stChanged (f : List Byte) (s : State) : (loadFrame f s).stChanged = s.stChanged := rfl
@[simp] theorem loadFrame_txPl (f : List Byte) (s : State) : (loadFrame f s).txPl = s.txPl := rfl
@[simp] theorem loadFrame_txPlW (f : List Byte) (s : State) : (loadFrame f s).txPlW = s.txPlW := rfl
@[simp] theorem loadFrame_cfgPumpPresent (f : List Byte) (s : State) : (loadFrame f s).cfgPumpPresent = s.cfgPumpPresent := rfl
@[simp] theorem loadFrame_cfgCapEn (f : List Byte) (s : State) : (loadFrame f s).cfgCapEn = s.cfgCapEn := rfl
@[simp] theorem loadFrame_params (f : List Byte) (s : State) : (loadFrame f s).params = s.params := rfl
@[simp] theorem loadFrame_inputs (f : List Byte) (s : State) : (loadFrame f s).inputs = s.inputs := rfl
@[simp] theorem loadFrame_resets (f : List Byte) (s : State) : (loadFrame f s).resets = s.resets := rfl

/-! ### recordMsg -/

@[simp] theorem recordMsg_msgAny (v : Variant) (k : Pins) (b : SubVariant) (s : State) :
    (recordMsg v k b s).msgAny = true := by
  unfold recordMsg; split <;> simp
@[simp] theorem recordMsg_msgVariant (v : Variant) (k : Pins) (b : SubVariant) (s : State) :
    (recordMsg v k b s).msgVariant = v := by
  unfold recordMsg; split <;> simp
@[simp] theorem recordMsg_crcReg (v : Variant) (k : Pins) (b : SubVariant) (s : State) : (recordMsg v k b s).crcReg = s.crcReg := by
  unfold recordMsg; split <;> simp
@[simp] theorem recordMsg_rxState (v : Variant) (k : Pins) (b : SubVariant) (s : State) : (recordMsg v k b s).rxState = s.rxState := by
  unfold recordMsg; split <;> simp
@[simp] theorem recordMsg_rxCnt (v : Variant) (k : Pins) (b : SubVariant) (s : State) : (recordMsg v k b s).rxCnt = s.rxCnt := by
  unfold recordMsg; split <;> simp
@[simp] theorem recordMsg_rxNeed (v : Variant) (k : Pins) (b : SubVariant) (s : State) : (recordMsg v k b s).rxNeed = s.rxNeed := by
  unfold recordMsg; split <;> simp
@[simp] theorem recordMsg_rxBuf (v : Variant) (k : Pins) (b : SubVariant) (s : State) : (recordMsg v k b s).rxBuf = s.rxBuf := by
  unfold recordMsg; split <;> simp
@[simp] theorem recordMsg_rxLastb (v : Variant) (k : Pins) (b : SubVariant) (s : State) : (recordMsg v k b s).rxLastb = s.rxLastb := by
  unfold recordMsg; split <;> simp
@[simp] theorem recordMsg_frmAny (v : Variant) (k : Pins) (b : SubVariant) (s : State) : (recordMsg v k b s).frmAny = s.frmAny := by
  unfold recordMsg; split <;> simp
@[simp] theorem recordMsg_frmSeq (v : Variant) (k : Pins) (b : SubVariant) (s : State) : (recordMsg v k b s).frmSeq = s.frmSeq := by
  unfold recordMsg; split <;> simp
@[simp] theorem recordMsg_frmCnt (v : Variant) (k : Pins) (b : SubVariant) (s : State) : (recordMsg v k b s).frmCnt = s.frmCnt := by
  unfold recordMsg; split <;> simp
@[simp] theorem recordMsg_frmCh (v : Variant) (k : Pins) (b : SubVariant) (s : State) : (recordMsg v k b s).frmCh = s.frmCh := by
  unfold recordMsg; split <;> simp
@[simp] theorem recordMsg_frmFlag (v : Variant) (k : Pins) (b : SubVariant) (s : State) : (recordMsg v k b s).frmFlag = s.frmFlag := by
  unfold recordMsg; split <;> simp
@[simp] theorem recordMsg_frmType (v : Variant) (k : Pins) (b : SubVariant) (s : State) : (recordMsg v k b s).frmType = s.frmType := by
  unfold recordMsg; split <;> simp
@[simp] theorem recordMsg_frmPlen (v : Variant) (k : Pins) (b : SubVariant) (s : State) : (recordMsg v k b s).frmPlen = s.frmPlen := by
  unfold recordMsg; split <;> simp
@[simp] theorem recordMsg_frmPayload (v : Variant) (k : Pins) (b : SubVariant) (s : State) : (recordMsg v k b s).frmPayload = s.frmPayload := by
  unfold recordMsg; split <;> simp
@[simp] theorem recordMsg_frmCrcRx (v : Variant) (k : Pins) (b : SubVariant) (s : State) : (recordMsg v k b s).frmCrcRx = s.frmCrcRx := by
  unfold recordMsg; split <;> simp
@[simp] theorem recordMsg_frmCrcCalc (v : Variant) (k : Pins) (b : SubVariant) (s : State) : (recordMsg v k b s).frmCrcCalc = s.frmCrcCalc := by
  unfold recordMsg; split <;> simp
@[simp] theorem recordMsg_stValid (v : Variant) (k : Pins) (b : SubVariant) (s : State) : (recordMsg v k b s).stValid = s.stValid := by
  unfold recordMsg; split <;> simp
@[simp] theorem recordMsg_stSnap (v : Variant) (k : Pins) (b : SubVariant) (s : State) : (recordMsg v k b s).stSnap = s.stSnap := by
  unfold recordMsg; split <;> simp
@[simp] theorem recordMsg_stChanged (v : Variant) (k : Pins) (b : SubVariant) (s : State) : (recordMsg v k b s).stChanged = s.stChanged := by
  unfold recordMsg; split <;> simp
@[simp] theorem recordMsg_txPl (v : Variant) (k : Pins) (b : SubVariant) (s : State) : (recordMsg v k b s).txPl = s.txPl := by
  unfold recordMsg; split <;> simp
@[simp] theorem recordMsg_txPlW (v : Variant) (k : Pins) (b : SubVariant) (s : State) : (recordMsg v k b s).txPlW = s.txPlW := by
  unfold recordMsg; split <;> simp
@[simp] theorem recordMsg_txFrame (v : Variant) (k : Pins) (b : SubVariant) (s : State) : (recordMsg v k b s).txFrame = s.txFrame := by
  unfold recordMsg; split <;> simp
@[simp] theorem recordMsg_txLen (v : Variant) (k : Pins) (b : SubVariant) (s : State) : (recordMsg v k b s).txLen = s.txLen := by
  unfold recordMsg; split <;> simp
@[simp] theorem recordMsg_txIdx (v : Variant) (k : Pins) (b : SubVariant) (s : State) : (recordMsg v k b s).txIdx = s.txIdx := by
  unfold recordMsg; split <;> simp
@[simp] theorem recordMsg_cfgPumpPresent (v : Variant) (k : Pins) (b : SubVariant) (s : State) : (recordMsg v k b s).cfgPumpPresent = s.cfgPumpPresent := by
  unfold recordMsg; split <;> simp
@[simp] theorem recordMsg_cfgCapEn (v : Variant) (k : Pins) (b : SubVariant) (s : State) : (recordMsg v k b s).cfgCapEn = s.cfgCapEn := by
  unfold recordMsg; split <;> simp
@[simp] theorem recordMsg_params (v : Variant) (k : Pins) (b : SubVariant) (s : State) : (recordMsg v k b s).params = s.params := by
  unfold recordMsg; split <;> simp
@[simp] theorem recordMsg_inputs (v : Variant) (k : Pins) (b : SubVariant) (s : State) : (recordMsg v k b s).inputs = s.inputs := by
  unfold recordMsg; split <;> simp
@[simp] theorem recordMsg_resets (v : Variant) (k : Pins) (b : SubVariant) (s : State) : (recordMsg v k b s).resets = s.resets := by
  unfold recordMsg; split <;> simp

/-! ### statusUnpack -/

@[simp] theorem statusUnpack_stValid (p : List Byte) (s : State) : (statusUnpack p s).stValid = true := by
  unfold statusUnpack snapshotDiffers; split <;> simp_all
@[simp] theorem statusUnpack_stChanged (p : List Byte) (s : State) :
    (statusUnpack p s).stChanged = snapshotDiffers p s := by
  unfold statusUnpack; split <;> simp_all
@[simp] theorem statusUnpack_events (p : List Byte) (s : State) :
    (statusUnpack p s).events = { s.events with status := true } := by
  unfold statusUnpack; split <;> rfl
@[simp] theorem statusUnpack_crcReg (p : List Byte) (s : State) : (statusUnpack p s).crcReg = s.crcReg := by
  unfold statusUnpack; split <;> rfl
@[simp] theorem statusUnpack_rxState (p : List Byte) (s : State) : (statusUnpack p s).rxState = s.rxState := by
  unfold statusUnpack; split <;> rfl
@[simp] theorem statusUnpack_rxCnt (p : List Byte) (s : State) : (statusUnpack p s).rxCnt = s.rxCnt := by
  unfold statusUnpack; split <;> rfl
@[simp] theorem statusUnpack_rxNeed (p : List Byte) (s : State) : (statusUnpack p s).rxNeed = s.rxNeed := by
  unfold statusUnpack; split <;> rfl
@[simp] theorem statusUnpack_rxBuf (p : List Byte) (s : State) : (statusUnpack p s).rxBuf = s.rxBuf := by
  unfold statusUnpack; split <;> rfl
@[simp] theorem statusUnpack_rxLastb (p : List Byte) (s : State) : (statusUnpack p s).rxLastb = s.rxLastb := by
  unfold statusUnpack; split <;> rfl
@[simp] theorem statusUnpack_frmAny (p : List Byte) (s : State) : (statusUnpack p s).frmAny = s.frmAny := by
  unfold statusUnpack; split <;> rfl
@[simp] theorem statusUnpack_frmSeq (p : List Byte) (s : State) : (statusUnpack p s).frmSeq = s.frmSeq := by
  unfold statusUnpack; split <;> rfl
@[simp] theorem statusUnpack_frmErr (p : List Byte) (s : State) : (statusUnpack p s).frmErr = s.frmErr := by
  unfold statusUnpack; split <;> rfl
@[simp] theorem statusUnpack_frmCnt (p : List Byte) (s : State) : (statusUnpack p s).frmCnt = s.frmCnt := by
  unfold statusUnpack; split <;> rfl
@[simp] theorem statusUnpack_frmCh (p : List Byte) (s : State) : (statusUnpack p s).frmCh = s.frmCh := by
  unfold statusUnpack; split <;> rfl
@[simp] theorem statusUnpack_frmFlag (p : List Byte) (s : State) : (statusUnpack p s).frmFlag = s.frmFlag := by
  unfold statusUnpack; split <;> rfl
@[simp] theorem statusUnpack_frmType (p : List Byte) (s : State) : (statusUnpack p s).frmType = s.frmType := by
  unfold statusUnpack; split <;> rfl
@[simp] theorem statusUnpack_frmPlen (p : List Byte) (s : State) : (statusUnpack p s).frmPlen = s.frmPlen := by
  unfold statusUnpack; split <;> rfl
@[simp] theorem statusUnpack_frmPayload (p : List Byte) (s : State) : (statusUnpack p s).frmPayload = s.frmPayload := by
  unfold statusUnpack; split <;> rfl
@[simp] theorem statusUnpack_frmCrcRx (p : List Byte) (s : State) : (statusUnpack p s).frmCrcRx = s.frmCrcRx := by
  unfold statusUnpack; split <;> rfl
@[simp] theorem statusUnpack_frmCrcCalc (p : List Byte) (s : State) : (statusUnpack p s).frmCrcCalc = s.frmCrcCalc := by
  unfold statusUnpack; split <;> rfl
@[simp] theorem statusUnpack_msgAny (p : List Byte) (s : State) : (statusUnpack p s).msgAny = s.msgAny := by
  unfold statusUnpack; split <;> rfl
@[simp] theorem statusUnpack_msgErr (p : List Byte) (s : State) : (statusUnpack p s).msgErr = s.msgErr := by
  unfold statusUnpack; split <;> rfl
@[simp] theorem statusUnpack_msgVariant (p : List Byte) (s : State) : (statusUnpack p s).msgVariant = s.msgVariant := by
  unfold statusUnpack; split <;> rfl
@[simp] theorem statusUnpack_msgSub (p : List Byte) (s : State) : (statusUnpack p s).msgSub = s.msgSub := by
  unfold statusUnpack; split <;> rfl
@[simp] theorem statusUnpack_txPl (p : List Byte) (s : State) : (statusUnpack p s).txPl = s.txPl := by
  unfold statusUnpack; split <;> rfl
@[simp] theorem statusUnpack_txPlW (p : List Byte) (s : State) : (statusUnpack p s).txPlW = s.txPlW := by
  unfold statusUnpack; split <;> rfl
@[simp] theorem statusUnpack_txFrame (p : List Byte) (s : State) : (statusUnpack p s).txFrame = s.txFrame := by
  unfold statusUnpack; split <;> rfl
@[simp] theorem statusUnpack_txLen (p : List Byte) (s : State) : (statusUnpack p s).txLen = s.txLen := by
  unfold statusUnpack; split <;> rfl
@[simp] theorem statusUnpack_txIdx (p : List Byte) (s : State) : (statusUnpack p s).txIdx = s.txIdx := by
  unfold statusUnpack; split <;> rfl
@[simp] theorem statusUnpack_txErr (p : List Byte) (s : State) : (statusUnpack p s).txErr = s.txErr := by
  unfold statusUnpack; split <;> rfl
@[simp] theorem statusUnpack_cfgPumpPresent (p : List Byte) (s : State) : (statusUnpack p s).cfgPumpPresent = s.cfgPumpPresent := by
  unfold statusUnpack; split <;> rfl
@[simp] theorem statusUnpack_cfgCapEn (p : List Byte) (s : State) : (statusUnpack p s).cfgCapEn = s.cfgCapEn := by
  unfold statusUnpack; split <;> rfl
@[simp] theorem statusUnpack_params (p : List Byte) (s : State) : (statusUnpack p s).params = s.params := by
  unfold statusUnpack; split <;> rfl
@[simp] theorem statusUnpack_inputs (p : List Byte) (s : State) : (statusUnpack p s).inputs = s.inputs := by
  unfold statusUnpack; split <;> rfl
@[simp] theorem statusUnpack_resets (p : List Byte) (s : State) : (statusUnpack p s).resets = s.resets := by
  unfold statusUnpack; split <;> rfl

end Sys2Proof.Machine
end

