-- ==== Sys2Proof/Laws/Cycle.lean ====
section
/-! SUPPORT. The laws of sequencing and of a cycle's sub-steps: what `andThen`, the ports and the host command do. -/

namespace Sys2Proof.Machine

@[simp] theorem andThen_next (s : State) (f : State → Result) : andThen (.next s) f = f s := rfl
@[simp] theorem andThen_fault (e : Fault) (f : State → Result) : andThen (.fault e) f = .fault e := rfl
@[simp] theorem andThen_refused (e : Refusal) (f : State → Result) : andThen (.refused e) f = .refused e := rfl

theorem andThen_assoc (r : Result) (f g : State → Result) :
    andThen (andThen r f) g = andThen r (fun s => andThen (f s) g) := by
  cases r <;> rfl

@[simp] theorem andThen_next_right (r : Result) : andThen r .next = r := by cases r <;> rfl

/-- A sequence answers a next state exactly when both parts do. -/
theorem andThen_eq_next {r : Result} {f : State → Result} {t : State} :
    andThen r f = .next t ↔ ∃ s, r = .next s ∧ f s = .next t := by
  cases r <;> simp

/-- The receive port runs the row that the source, the scanner's state and the byte select. -/
theorem runWord_rxPort (w : BitVec 10) (s : State) :
    runWord (.rxPort w) s = exec (decodeRx s.params.rxSource s.rxState w) s := rfl

/-- The transmit port runs TX_POP when the sink is ready. -/
theorem runWord_txPort (c : CycleInput) (s : State) :
    runWord c.txPort s = if c.txReady then exec .txPop s else .next s := by
  unfold runWord CycleInput.txPort
  cases c.txReady <;> rfl

theorem runWord_rstPort {c : CycleInput} (h : c.rst = true) (s : State) : runWord c.rstPort s = exec .reset s := by
  unfold runWord CycleInput.rstPort
  rw [h]; rfl

/-- A command word runs its operation, or is illegal. -/
theorem runWord_cmd32 (w : CmdWord) (s : State) :
    runWord (.cmd32 w) s =
      match decodeCommand w with
      | .ok i => exec i s
      | .error .reservedBit => illegalReserved s
      | .error .noTransaction => .next s := rfl

@[simp] theorem exec_rxIdle (l : Bool) (b : Byte) (s : State) : exec (.rxIdle l b) s = .next s := rfl

/-- The only reason to reject a command word. -/
theorem decodeCommand_error {w : CmdWord} {e : DecodeReject} (h : decodeCommand w = .error e) : e = .reservedBit := by
  unfold decodeCommand unlessReserved at h
  split at h <;> first | cases h | (split at h <;> first | (cases h; rfl) | cases h)

/-- The host command sub-step, in terms of the operation it runs. -/
theorem runCommand_eq (c : CycleInput) (s : State) :
    runCommand c s =
      if c.cmdValid then
        match decodeCommand c.cmd with
        | .ok i => exec i s
        | .error _ => .next (raiseError .illegalCommand s)
      else .next s := by
  unfold runCommand
  split
  · rw [runWord_cmd32]
    cases h : decodeCommand c.cmd with
    | ok i => rfl
    | error e => rw [decodeCommand_error h]; rfl
  · rfl

/-- The wires of a receive-port word. -/
theorem rxWord_getLsbD (v l : Bool) (b : Byte) (i : Nat) :
    (rxWord v l b).getLsbD i = if i < 8 then b.getLsbD i else if i = 8 then l else if i = 9 then v else false := by
  change BitVec.getLsbD (w := 1 + 1 + 8) (BitVec.ofBool v ++ BitVec.ofBool l ++ b) i = _
  rw [BitVec.getLsbD_append, BitVec.getLsbD_append]
  by_cases h8 : i < 8
  · simp [h8]
  · obtain rfl | rfl | h : i = 8 ∨ i = 9 ∨ 10 ≤ i := by omega
    · simp
    · simp
    · have h1 : ¬ i - 8 < 1 := by omega
      have h2 : i ≠ 8 := by omega
      have h3 : i ≠ 9 := by omega
      simp only [h8, h1, h2, h3, if_false]
      exact BitVec.getLsbD_of_ge _ _ (by omega)

theorem rxWord_data (v l : Bool) (b : Byte) : (rxWord v l b).extractLsb' 0 8 = b := by
  apply BitVec.eq_of_getLsbD_eq
  intro i hi
  rw [BitVec.getLsbD_extractLsb', rxWord_getLsbD]
  simp [hi]

/-- The row of an idle receive port. -/
theorem decodeRx_idle (src : RxSource) (st : RxState) (l : Bool) (b : Byte) :
    decodeRx src st (rxWord false l b) = .rxIdle l b := by
  simp only [decodeRx, rxWord_getLsbD, rxWord_data]; rfl

/-- The row of a received byte. -/
theorem decodeRx_byte (src : RxSource) (st : RxState) (l : Bool) (b : Byte) :
    decodeRx src st (rxWord true l b) =
      match src with
      | .scan => decodeScan st l b
      | .span => .rxSpan l b := by
  simp only [decodeRx, rxWord_getLsbD, rxWord_data]; rfl

/-- The sub-steps of a cycle with no reset, in terms of the operations they run. -/
theorem runSubSteps_eq (c : CycleInput) (s : State) :
    runSubSteps c s =
      andThen (exec (decodeRx s.params.rxSource s.rxState (rxWord c.rxValid c.rxLast c.rxData)) s) fun s₁ =>
      andThen (if c.txReady then exec .txPop s₁ else .next s₁) fun s₂ => runCommand c s₂ := by
  unfold runSubSteps
  simp only [runWord_txPort]
  rfl

theorem nextCycle_nil {s : State} (h : s.inputs = []) : nextCycle s = runCycle {} (beginCycle [] s) := by
  unfold nextCycle; rw [h]

theorem nextCycle_cons {s : State} {c : CycleInput} {rest : List CycleInput} (h : s.inputs = c :: rest) :
    nextCycle s = runCycle c (beginCycle rest s) := by
  unfold nextCycle; rw [h]

theorem runCycle_rst {c : CycleInput} (h : c.rst = true) (s : State) : runCycle c s = exec .reset s := by
  unfold runCycle; rw [if_pos h, runWord_rstPort h]

theorem runCycle_noRst {c : CycleInput} (h : c.rst = false) (s : State) : runCycle c s = runSubSteps c s := by
  unfold runCycle; simp [h]

/-- A step, by the inputs it takes. -/
theorem step_nil {s : State} (h : s.inputs = []) : step s = .next (beginCycle [] s) := by
  unfold step
  rw [nextCycle_nil h, runCycle_noRst rfl, runSubSteps_eq]
  simp [decodeRx_idle, runCommand]

theorem step_rst {s : State} {c : CycleInput} {rest : List CycleInput} (h : s.inputs = c :: rest)
    (hc : c.rst = true) : step s = exec .reset (beginCycle rest s) := by
  unfold step
  rw [nextCycle_cons h, runCycle_rst hc]

theorem step_noRst {s : State} {c : CycleInput} {rest : List CycleInput} (h : s.inputs = c :: rest)
    (hc : c.rst = false) : step s = runSubSteps c (beginCycle rest s) := by
  unfold step
  rw [nextCycle_cons h, runCycle_noRst hc]

/-- A cycle that only receives a byte runs that byte's operation. -/
theorem step_rx {s : State} {l : Bool} {b : Byte} {rest : List CycleInput}
    (h : s.inputs = { rxValid := true, rxLast := l, rxData := b } :: rest) :
    step s = exec (match s.params.rxSource with
      | .scan => decodeScan s.rxState l b
      | .span => .rxSpan l b) (beginCycle rest s) := by
  rw [step_noRst h rfl, runSubSteps_eq]
  simp only [decodeRx_byte, runCommand, Bool.false_eq_true, if_false, andThen_next_right,
    beginCycle_params, beginCycle_rxState]

/-- A cycle that only asks for a byte runs TX_POP. -/
theorem step_pop {s : State} {rest : List CycleInput} (h : s.inputs = { txReady := true } :: rest) :
    step s = exec .txPop (beginCycle rest s) := by
  rw [step_noRst h rfl, runSubSteps_eq]
  simp [decodeRx_idle, runCommand]

/-- A cycle that only presents a command runs it. -/
theorem step_cmd {s : State} {w : CmdWord} {i : Instr} {rest : List CycleInput}
    (h : s.inputs = { cmdValid := true, cmd := w } :: rest) (hi : decodeCommand w = .ok i) :
    step s = exec i (beginCycle rest s) := by
  rw [step_noRst h rfl, runSubSteps_eq]
  simp [decodeRx_idle, runCommand_eq, hi]

/-- A step is a cycle with the first of the coming inputs, idle if none is left. -/
theorem step_eq (s : State) : step s = runCycle (s.inputs.headD {}) (beginCycle s.inputs.tail s) := by
  unfold step
  cases h : s.inputs with
  | nil => exact nextCycle_nil h
  | cons c rest => exact nextCycle_cons h

/-- Everything a step that answers did: a reset, or the three sub-steps. -/
theorem step_cases {s t : State} (h : step s = .next t) :
    ((s.inputs.headD {}).rst = true ∧ exec .reset (beginCycle s.inputs.tail s) = .next t) ∨
      ((s.inputs.headD {}).rst = false ∧ ∃ u v,
        exec (decodeRx s.params.rxSource s.rxState
          (rxWord (s.inputs.headD {}).rxValid (s.inputs.headD {}).rxLast (s.inputs.headD {}).rxData))
          (beginCycle s.inputs.tail s) = .next u ∧
        (if (s.inputs.headD {}).txReady then exec .txPop u else .next u) = .next v ∧
        runCommand (s.inputs.headD {}) v = .next t) := by
  rw [step_eq] at h
  cases hr : (s.inputs.headD {}).rst with
  | true => exact .inl ⟨rfl, by rwa [runCycle_rst hr] at h⟩
  | false =>
    rw [runCycle_noRst hr, runSubSteps_eq, andThen_eq_next] at h
    obtain ⟨u, hu, h⟩ := h
    obtain ⟨v, hv, h⟩ := andThen_eq_next.1 h
    exact .inr ⟨rfl, u, v, hu, hv, h⟩

/-! ### Runs -/

theorem run_zero (s : State) : Host.Core.run Sys2Proof.core 0 s = .next s := rfl

/-- A run's first cycle and the rest. -/
theorem run_succ {k : Nat} {s t : State} (h : step s = .next t) :
    Host.Core.run Sys2Proof.core (k + 1) s = Host.Core.run Sys2Proof.core k t := by
  have h' : Sys2Proof.core.step s = .next t := h
  simp only [Host.Core.run, h']

theorem run_succ_eq_next {k : Nat} {s t : State} :
    Host.Core.run Sys2Proof.core (k + 1) s = .next t ↔
      ∃ u, step s = .next u ∧ Host.Core.run Sys2Proof.core k u = .next t := by
  cases h : step s with
  | next u => rw [run_succ h]; simp
  | fault e => have h' : Sys2Proof.core.step s = .fault e := h; simp [Host.Core.run, h']
  | refused e => have h' : Sys2Proof.core.step s = .refused e := h; simp [Host.Core.run, h']

/-- Runs in a row. -/
theorem run_add {k m : Nat} {s t : State} (h : Host.Core.run Sys2Proof.core k s = .next t) :
    Host.Core.run Sys2Proof.core (k + m) s = Host.Core.run Sys2Proof.core m t := by
  induction k generalizing s with
  | zero =>
    cases h
    rw [Nat.zero_add]
  | succ k ih =>
    obtain ⟨u, hu, hr⟩ := run_succ_eq_next.1 h
    rw [Nat.succ_add, run_succ hu, ih hr]

end Sys2Proof.Machine
end

