-- ==== Sys2Proof/Laws/Decode.lean ====
section
/-! SUPPORT. The laws of the decoder and the encoder: the fields of each command word, the receive port's word, and the
type codes. -/

namespace Sys2Proof

/-- A field of a word, bit by bit. -/
theorem extractLsb'_eq_iff {n : Nat} (w : BitVec n) (s k : Nat) (v : BitVec k) :
    w.extractLsb' s k = v ↔ ∀ i, i < k → w.getLsbD (s + i) = v.getLsbD i := by
  constructor
  · rintro rfl i hi
    rw [BitVec.getLsbD_extractLsb']; simp [hi]
  · intro h
    apply BitVec.eq_of_getLsbD_eq
    intro i hi
    rw [BitVec.getLsbD_extractLsb', h i hi]; simp [hi]

/-- The upper part of an appended word. -/
theorem extractLsb'_append_upper {a b : Nat} (x : BitVec a) (y : BitVec b) (s k : Nat) (h : b ≤ s) :
    (x ++ y).extractLsb' s k = x.extractLsb' (s - b) k := by
  rw [extractLsb'_eq_iff]
  intro i hi
  rw [BitVec.getLsbD_append, BitVec.getLsbD_extractLsb', if_neg (by omega)]
  simp only [hi, decide_true, Bool.true_and]
  congr 1; omega

/-- The lower part of an appended word. -/
theorem extractLsb'_append_lower {a b : Nat} (x : BitVec a) (y : BitVec b) (s k : Nat) (h : s + k ≤ b) :
    (x ++ y).extractLsb' s k = y.extractLsb' s k := by
  rw [extractLsb'_eq_iff]
  intro i hi
  rw [BitVec.getLsbD_append, BitVec.getLsbD_extractLsb', if_pos (by omega)]
  simp [hi]

theorem extractLsb'_full {a : Nat} (x : BitVec a) : x.extractLsb' 0 a = x := by
  rw [extractLsb'_eq_iff]; intro i _; rw [Nat.zero_add]

/-! ### Each command's word decodes to it -/

theorem decodeCommand_nop : decodeCommand (0b0000#4 ++ 0#28) = .ok .nop := by decide

theorem decodeCommand_crcInit : decodeCommand (0b0001#4 ++ 0#28) = .ok .crcInit := by decide

theorem decodeCommand_crcUpdate (b : Byte) : decodeCommand (0b0010#4 ++ 0#20 ++ b) = .ok (.crcUpdate b) := by
  have h0 : (0b0010#4 ++ 0#20 ++ b).extractLsb' 28 4 = 2#4 := by
    rw [extractLsb'_append_upper _ _ _ _ (by decide), extractLsb'_append_upper _ _ _ _ (by decide)]; rfl
  have h1 : (0b0010#4 ++ 0#20 ++ b).extractLsb' 8 20 = 0#20 := by
    rw [extractLsb'_append_upper _ _ _ _ (by decide), extractLsb'_append_lower _ _ _ _ (by decide)]; rfl
  have h2 : (0b0010#4 ++ 0#20 ++ b).extractLsb' 0 8 = b := by
    rw [extractLsb'_append_lower _ _ _ _ (by decide), extractLsb'_full]
  unfold decodeCommand
  rw [h0]
  simp only [h1, h2]
  rfl

theorem decodeCommand_txWrite (i b : Byte) : decodeCommand (0b0011#4 ++ 0#12 ++ i ++ b) = .ok (.txWrite i b) := by
  have h0 : (0b0011#4 ++ 0#12 ++ i ++ b).extractLsb' 28 4 = 3#4 := by
    rw [extractLsb'_append_upper _ _ _ _ (by decide), extractLsb'_append_upper _ _ _ _ (by decide),
      extractLsb'_append_upper _ _ _ _ (by decide)]; rfl
  have h1 : (0b0011#4 ++ 0#12 ++ i ++ b).extractLsb' 16 12 = 0#12 := by
    rw [extractLsb'_append_upper _ _ _ _ (by decide), extractLsb'_append_upper _ _ _ _ (by decide),
      extractLsb'_append_lower _ _ _ _ (by decide)]; rfl
  have h2 : (0b0011#4 ++ 0#12 ++ i ++ b).extractLsb' 8 8 = i := by
    rw [extractLsb'_append_upper _ _ _ _ (by decide), extractLsb'_append_lower _ _ _ _ (by decide), extractLsb'_full]
  have h3 : (0b0011#4 ++ 0#12 ++ i ++ b).extractLsb' 0 8 = b := by
    rw [extractLsb'_append_lower _ _ _ _ (by decide), extractLsb'_full]
  unfold decodeCommand
  rw [h0]
  simp only [h1, h2, h3]
  rfl

theorem decodeCommand_txStart (ch t n : Byte) :
    decodeCommand (0b0100#4 ++ 0#4 ++ ch ++ t ++ n) = .ok (.txStart ch t n) := by
  have h0 : (0b0100#4 ++ 0#4 ++ ch ++ t ++ n).extractLsb' 28 4 = 4#4 := by
    rw [extractLsb'_append_upper _ _ _ _ (by decide), extractLsb'_append_upper _ _ _ _ (by decide),
      extractLsb'_append_upper _ _ _ _ (by decide), extractLsb'_append_upper _ _ _ _ (by decide)]; rfl
  have h1 : (0b0100#4 ++ 0#4 ++ ch ++ t ++ n).extractLsb' 24 4 = 0#4 := by
    rw [extractLsb'_append_upper _ _ _ _ (by decide), extractLsb'_append_upper _ _ _ _ (by decide),
      extractLsb'_append_upper _ _ _ _ (by decide), extractLsb'_append_lower _ _ _ _ (by decide)]; rfl
  have h2 : (0b0100#4 ++ 0#4 ++ ch ++ t ++ n).extractLsb' 16 8 = ch := by
    rw [extractLsb'_append_upper _ _ _ _ (by decide), extractLsb'_append_upper _ _ _ _ (by decide),
      extractLsb'_append_lower _ _ _ _ (by decide), extractLsb'_full]
  have h3 : (0b0100#4 ++ 0#4 ++ ch ++ t ++ n).extractLsb' 8 8 = t := by
    rw [extractLsb'_append_upper _ _ _ _ (by decide), extractLsb'_append_lower _ _ _ _ (by decide), extractLsb'_full]
  have h4 : (0b0100#4 ++ 0#4 ++ ch ++ t ++ n).extractLsb' 0 8 = n := by
    rw [extractLsb'_append_lower _ _ _ _ (by decide), extractLsb'_full]
  unfold decodeCommand
  rw [h0]
  simp only [h1, h2, h3, h4]
  rfl

theorem decodeCommand_cfgWrite (cap : BitVec 7) (pumps : BitVec 6) :
    decodeCommand (0b0101#4 ++ 0#13 ++ cap ++ 0#2 ++ pumps) = .ok (.cfgWrite cap pumps) := by
  have h0 : (0b0101#4 ++ 0#13 ++ cap ++ 0#2 ++ pumps).extractLsb' 28 4 = 5#4 := by
    rw [extractLsb'_append_upper _ _ _ _ (by decide), extractLsb'_append_upper _ _ _ _ (by decide),
      extractLsb'_append_upper _ _ _ _ (by decide), extractLsb'_append_upper _ _ _ _ (by decide)]; rfl
  have h1 : (0b0101#4 ++ 0#13 ++ cap ++ 0#2 ++ pumps).extractLsb' 15 13 = 0#13 := by
    rw [extractLsb'_append_upper _ _ _ _ (by decide), extractLsb'_append_upper _ _ _ _ (by decide),
      extractLsb'_append_upper _ _ _ _ (by decide), extractLsb'_append_lower _ _ _ _ (by decide)]; rfl
  have h2 : (0b0101#4 ++ 0#13 ++ cap ++ 0#2 ++ pumps).extractLsb' 6 2 = 0#2 := by
    rw [extractLsb'_append_upper _ _ _ _ (by decide), extractLsb'_append_lower _ _ _ _ (by decide)]; rfl
  have h3 : (0b0101#4 ++ 0#13 ++ cap ++ 0#2 ++ pumps).extractLsb' 8 7 = cap := by
    rw [extractLsb'_append_upper _ _ _ _ (by decide), extractLsb'_append_upper _ _ _ _ (by decide),
      extractLsb'_append_lower _ _ _ _ (by decide), extractLsb'_full]
  have h4 : (0b0101#4 ++ 0#13 ++ cap ++ 0#2 ++ pumps).extractLsb' 0 6 = pumps := by
    rw [extractLsb'_append_lower _ _ _ _ (by decide), extractLsb'_full]
  unfold decodeCommand
  rw [h0]
  simp only [h1, h2, h3, h4]
  rfl

theorem decodeCommand_illegalOp67 (low : BitVec 29) :
    decodeCommand (0b011#3 ++ low) = .ok (.illegalOp67 low) := by
  have h1 : (0b011#3 ++ low).extractLsb' 0 29 = low := by
    rw [extractLsb'_append_lower _ _ _ _ (by decide), extractLsb'_full]
  have h0 : (0b011#3 ++ low).extractLsb' 28 4 = 0b011#3 ++ low.extractLsb' 28 1 := by
    rw [extractLsb'_eq_iff]
    intro i hi
    rw [BitVec.getLsbD_append]
    change _ = BitVec.getLsbD (w := 3 + 1) (0b011#3 ++ low.extractLsb' 28 1) i
    rw [BitVec.getLsbD_append, BitVec.getLsbD_extractLsb']
    by_cases h : i < 1
    · obtain rfl : i = 0 := by omega
      rfl
    · rw [if_neg (by omega), if_neg h]; congr 1; omega
  unfold decodeCommand
  rw [h0, h1]
  obtain h | h : low.extractLsb' 28 1 = 0#1 ∨ low.extractLsb' 28 1 = 1#1 := by
    generalize low.extractLsb' 28 1 = x; revert x; decide
  · rw [h]; rfl
  · rw [h]; rfl

theorem decodeCommand_illegalOp8F (low : BitVec 31) :
    decodeCommand (0b1#1 ++ low) = .ok (.illegalOp8F low) := by
  have h1 : (0b1#1 ++ low).extractLsb' 0 31 = low := by
    rw [extractLsb'_append_lower _ _ _ _ (by decide), extractLsb'_full]
  have h0 : (0b1#1 ++ low).extractLsb' 28 4 = 0b1#1 ++ low.extractLsb' 28 3 := by
    rw [extractLsb'_eq_iff]
    intro i hi
    rw [BitVec.getLsbD_append]
    change _ = BitVec.getLsbD (w := 1 + 3) (0b1#1 ++ low.extractLsb' 28 3) i
    rw [BitVec.getLsbD_append, BitVec.getLsbD_extractLsb']
    by_cases h : i < 3
    · rw [if_pos (by omega), if_pos h]; simp [h]
    · rw [if_neg (by omega), if_neg h]; congr 1; omega
  unfold decodeCommand
  rw [h0, h1]
  generalize low.extractLsb' 28 3 = x
  have hx : ∀ x : BitVec 3, 8 ≤ (0b1#1 ++ x).toNat := by decide
  have := hx x
  generalize (0b1#1 ++ x).toNat = n at this ⊢
  match n, this with
  | n + 8, _ => rfl

/-- The word of a decoded command is the word it was read from. -/
theorem encode_decodeCommand {w : CmdWord} {i : Instr} {m : TypeMap} (h : decodeCommand w = .ok i) :
    encode m i = some (.cmd32 w) := by
  unfold decodeCommand unlessReserved at h
  have hop : ∀ n : BitVec 4, (w.extractLsb' 28 4).toNat = n.toNat → ∀ i, i < 4 → w.getLsbD (28+i) = n.getLsbD i := by
    intro n hn
    exact (extractLsb'_eq_iff _ _ _ _).1 (BitVec.eq_of_toNat_eq hn)
  split at h
  · rename_i h0
    have hop := hop 0#4 h0
    split at h
    · rename_i h1
      have h1 := (extractLsb'_eq_iff _ _ _ _).1 (eq_of_beq h1)
      cases h
      simp only [encode, Option.some.injEq, PortWord.cmd32.injEq]
      apply BitVec.eq_of_getLsbD_eq; intro k hk
      rw [BitVec.getLsbD_append]
      split
      · rw [← h1 k (by omega)]; congr 1; omega
      · rw [← hop _ (by omega)]; congr 1; omega
    · cases h
  · rename_i h0
    have hop := hop 1#4 h0
    split at h
    · rename_i h1
      have h1 := (extractLsb'_eq_iff _ _ _ _).1 (eq_of_beq h1)
      cases h
      simp only [encode, Option.some.injEq, PortWord.cmd32.injEq]
      apply BitVec.eq_of_getLsbD_eq; intro k hk
      rw [BitVec.getLsbD_append]
      split
      · rw [← h1 k (by omega)]; congr 1; omega
      · rw [← hop _ (by omega)]; congr 1; omega
    · cases h
  · rename_i h0
    have hop := hop 2#4 h0
    split at h
    · rename_i h1
      have h1 := (extractLsb'_eq_iff _ _ _ _).1 (eq_of_beq h1)
      cases h
      simp only [encode, Option.some.injEq, PortWord.cmd32.injEq]
      apply BitVec.eq_of_getLsbD_eq; intro k hk
      simp only [BitVec.getLsbD_append]
      split_ifs with a b
      · rw [BitVec.getLsbD_extractLsb']; simp [a]
      · rw [← h1 _ (by omega)]; congr 1; omega
      · rw [← hop _ (by omega)]; congr 1; omega
    · cases h
  · rename_i h0
    have hop := hop 3#4 h0
    split at h
    · rename_i h1
      have h1 := (extractLsb'_eq_iff _ _ _ _).1 (eq_of_beq h1)
      cases h
      simp only [encode, Option.some.injEq, PortWord.cmd32.injEq]
      apply BitVec.eq_of_getLsbD_eq; intro k hk
      simp only [BitVec.getLsbD_append]
      split_ifs with a b c
      · rw [BitVec.getLsbD_extractLsb']; simp [a]
      · rw [BitVec.getLsbD_extractLsb']; simp [b]; congr 1; omega
      · rw [← h1 _ (by omega)]; congr 1; omega
      · rw [← hop _ (by omega)]; congr 1; omega
    · cases h
  · rename_i h0
    have hop := hop 4#4 h0
    split at h
    · rename_i h1
      have h1 := (extractLsb'_eq_iff _ _ _ _).1 (eq_of_beq h1)
      cases h
      simp only [encode, Option.some.injEq, PortWord.cmd32.injEq]
      apply BitVec.eq_of_getLsbD_eq; intro k hk
      simp only [BitVec.getLsbD_append]
      split_ifs with a b c d
      · rw [BitVec.getLsbD_extractLsb']; simp [a]
      · rw [BitVec.getLsbD_extractLsb']; simp [b]; congr 1; omega
      · rw [BitVec.getLsbD_extractLsb']; simp [c]; congr 1; omega
      · rw [← h1 _ (by omega)]; congr 1; omega
      · rw [← hop _ (by omega)]; congr 1; omega
    · cases h
  · rename_i h0
    have hop := hop 5#4 h0
    split at h
    · rename_i h1
      rw [Bool.and_eq_true] at h1
      have h2 := (extractLsb'_eq_iff _ _ _ _).1 (eq_of_beq h1.2)
      have h1 := (extractLsb'_eq_iff _ _ _ _).1 (eq_of_beq h1.1)
      cases h
      simp only [encode, Option.some.injEq, PortWord.cmd32.injEq]
      apply BitVec.eq_of_getLsbD_eq; intro k hk
      simp only [BitVec.getLsbD_append]
      split_ifs with a b c d
      · rw [BitVec.getLsbD_extractLsb']; simp [a]
      · rw [← h2 _ (by omega)]; congr 1; omega
      · rw [BitVec.getLsbD_extractLsb']; simp [c]; congr 1; omega
      · rw [← h1 _ (by omega)]; congr 1; omega
      · rw [← hop _ (by omega)]; congr 1; omega
    · cases h
  · rename_i h0
    have hop := hop 6#4 h0
    cases h
    simp only [encode, Option.some.injEq, PortWord.cmd32.injEq]
    apply BitVec.eq_of_getLsbD_eq; intro k hk
    simp only [BitVec.getLsbD_append]
    split_ifs with a
    · rw [BitVec.getLsbD_extractLsb']; simp [a]
    · have := hop (k - 28) (by omega)
      rw [show k = 28 + (k - 28) by omega, this]
      have : k = 29 ∨ k = 30 ∨ k = 31 := by omega
      obtain rfl | rfl | rfl := this <;> rfl
  · rename_i h0
    have hop := hop 7#4 h0
    cases h
    simp only [encode, Option.some.injEq, PortWord.cmd32.injEq]
    apply BitVec.eq_of_getLsbD_eq; intro k hk
    simp only [BitVec.getLsbD_append]
    split_ifs with a
    · rw [BitVec.getLsbD_extractLsb']; simp [a]
    · have := hop (k - 28) (by omega)
      rw [show k = 28 + (k - 28) by omega, this]
      have : k = 29 ∨ k = 30 ∨ k = 31 := by omega
      obtain rfl | rfl | rfl := this <;> rfl
  · rename_i n h0 h1 h2 h3 h4 h5 h6 h7
    cases h
    simp only [encode, Option.some.injEq, PortWord.cmd32.injEq]
    apply BitVec.eq_of_getLsbD_eq; intro k hk
    simp only [BitVec.getLsbD_append]
    split_ifs with a
    · rw [BitVec.getLsbD_extractLsb']; simp [a]
    · obtain rfl : k = 31 := by omega
      have hb : w.getLsbD 31 = (w.extractLsb' 28 4).getLsbD 3 := by rw [BitVec.getLsbD_extractLsb']; simp
      rw [hb]
      have : ∀ x : BitVec 4, 8 ≤ x.toNat → true = x.getLsbD 3 := by decide
      exact this _ (by rw [imp_false] at h0 h1 h2 h3 h4 h5 h6 h7; omega)

/-! ### Type codes -/

/-- A code found for an entry maps to it. -/
theorem TypeMap.entry_of_codeOf {m : TypeMap} {e : TypeEntry} {t : Byte} (h : m.codeOf e = some t) :
    m.entry t = some e := by
  simpa using List.find?_some h

theorem mem_allBytes (t : Byte) : t ∈ allBytes := by
  refine List.mem_map.2 ⟨t.toNat, List.mem_range.2 t.isLt, ?_⟩
  simp

/-- Every mapped entry has a code. -/
theorem TypeMap.codeOf_isSome {m : TypeMap} {e : TypeEntry} {t : Byte} (h : m.entry t = some e) :
    ∃ u, m.codeOf e = some u := by
  rw [← Option.isSome_iff_exists, TypeMap.codeOf, List.find?_isSome]
  exact ⟨t, mem_allBytes t, by simp [h]⟩

/-- A variant's code decodes to it. -/
theorem decodeType_encodeVariant {m : TypeMap} {v : Variant} {k : Pins} {w : PortWord}
    (h : encodeVariant m v k = some w) : ∃ t, w = .msgType8 t ∧ decodeType m t = v.instr k := by
  obtain ⟨t, ht, rfl⟩ := Option.map_eq_some_iff.1 h
  exact ⟨t, rfl, by simp [decodeType, TypeMap.entry_of_codeOf ht]⟩

/-- The word of a dispatch operation is its variant's. -/
theorem encode_instr (m : TypeMap) (v : Variant) (k : Pins) : encode m (v.instr k) = encodeVariant m v k := by
  cases v <;> rfl

theorem wf_instr (v : Variant) (k : Pins) : (v.instr k).wf = k.wfFor v := by
  cases v <;> rfl

theorem selected_instr (c : DecodeCtx) (v : Variant) (k : Pins) : (v.instr k).selected c = true := by
  cases v <;> rfl

end Sys2Proof
end

