-- ==== Sys2Proof/Laws/Memory.lean ====
section
/-! SUPPORT. The laws of the internal buffers: a read after a write, slices, and the canonical form. -/

namespace Sys2Proof.Machine

@[simp] theorem Memory.read_nil (i : Nat) : Memory.read [] i = Memory.unwritten := rfl

theorem Memory.read_cons (c : Host.Cell) (m : Memory) (i : Nat) :
    Memory.read (c :: m) i = if c.1 = i then c.2 else Memory.read m i := rfl

theorem Memory.read_erase (m : Memory) (i j : Nat) :
    (m.erase i).read j = if j = i then Memory.unwritten else m.read j := by
  induction m with
  | nil => simp [Memory.erase]
  | cons c m ih =>
    simp only [Memory.erase, List.filter_cons] at ih ⊢
    by_cases hc : c.1 = i <;> by_cases hj : j = i <;> simp_all [Memory.read_cons]
    omega

theorem Memory.read_insert (c : Host.Cell) (m : Memory) (j : Nat)
    (hm : ∀ d ∈ m, d.1 ≠ c.1) : (Memory.insert c m).read j = if j = c.1 then c.2 else m.read j := by
  induction m with
  | nil => simp [Memory.insert, Memory.read_cons, eq_comm]
  | cons d m ih =>
    have ih := ih (fun x hx => hm x (List.mem_cons_of_mem _ hx))
    have hd := hm d List.mem_cons_self
    unfold Memory.insert
    split
    · simp [Memory.read_cons, eq_comm]
    · rw [Memory.read_cons, ih, Memory.read_cons]
      by_cases h : d.1 = j
      · subst h; simp [hd]
      · simp [h]

/-- What every byte reads after a write. -/
theorem Memory.read_write (m : Memory) (i j : Nat) (v : Byte) :
    (m.write i v).read j = if j = i then v else m.read j := by
  unfold Memory.write
  split
  · rename_i h; rw [Memory.read_erase, h]
  · rw [Memory.read_insert _ _ _, Memory.read_erase]
    · split <;> simp_all
    · intro d hd
      simpa using (List.mem_filter.1 hd).2

@[simp] theorem Memory.read_write_same (m : Memory) (i : Nat) (v : Byte) : (m.write i v).read i = v := by
  simp [Memory.read_write]

theorem Memory.read_write_other (m : Memory) {i j : Nat} (h : j ≠ i) (v : Byte) :
    (m.write i v).read j = m.read j := by
  simp [Memory.read_write, h]

/-- What every byte reads after a slice is written. -/
theorem Memory.read_writeSlice (m : Memory) (i j : Nat) (bs : List Byte) :
    (m.writeSlice i bs).read j = if h : i ≤ j ∧ j - i < bs.length then bs[j - i]'h.2 else m.read j := by
  induction bs generalizing m i with
  | nil => simp [Memory.writeSlice]
  | cons b bs ih =>
    rw [Memory.writeSlice, ih, Memory.read_write]
    by_cases h : j = i
    · subst h; simp
    · by_cases h' : i + 1 ≤ j ∧ j - (i + 1) < bs.length
      · have h2 : i ≤ j ∧ j - i < (b :: bs).length := ⟨by omega, by simp; omega⟩
        rw [dif_pos h', dif_pos h2]
        have : j - i = (j - (i + 1)) + 1 := by omega
        simp only [this, List.getElem_cons_succ]
      · have h2 : ¬ (i ≤ j ∧ j - i < (b :: bs).length) := by simp; omega
        rw [dif_neg h', dif_neg h2, if_neg h]

@[simp] theorem Memory.length_readSlice (m : Memory) (i n : Nat) : (m.readSlice i n).length = n := by
  simp [Memory.readSlice]

theorem Memory.getElem_readSlice (m : Memory) (i n k : Nat) (h : k < (m.readSlice i n).length) :
    (m.readSlice i n)[k] = m.read (i + k) := by
  simp [Memory.readSlice]

@[simp] theorem Memory.readSlice_zero (m : Memory) (i : Nat) : m.readSlice i 0 = [] := rfl

/-- Two buffers that agree on a range have the same slice of it. -/
theorem Memory.readSlice_congr {m m' : Memory} {i n : Nat} (h : ∀ j, i ≤ j → j < i + n → m.read j = m'.read j) :
    m.readSlice i n = m'.readSlice i n := by
  apply List.ext_getElem (by simp)
  intro k h₁ _
  simp only [Memory.length_readSlice] at h₁
  rw [Memory.getElem_readSlice, Memory.getElem_readSlice]
  exact h _ (by omega) (by omega)

/-- A slice that was written reads back. -/
theorem Memory.readSlice_writeSlice (m : Memory) (i : Nat) (bs : List Byte) :
    (m.writeSlice i bs).readSlice i bs.length = bs := by
  apply List.ext_getElem (by simp)
  intro k h₁ h₂
  rw [Memory.getElem_readSlice, Memory.read_writeSlice, dif_pos ⟨by omega, by omega⟩]
  simp

/-- A buffer whose bytes from `i` on are those of `bs` has the slice `bs`. -/
theorem Memory.readSlice_eq {m : Memory} {i : Nat} {bs : List Byte}
    (h : ∀ k (hk : k < bs.length), m.read (i + k) = bs[k]) : m.readSlice i bs.length = bs := by
  apply List.ext_getElem (by simp)
  intro k _ h₂
  rw [Memory.getElem_readSlice, h k h₂]

/-! ### The canonical form -/

theorem Memory.wf_nil : Memory.wf [] := ⟨List.Pairwise.nil, fun _ h => nomatch h⟩

theorem Memory.within_nil (n : Nat) : Memory.within [] n := fun _ h => nomatch h

theorem Memory.wf_erase {m : Memory} (h : m.wf) (i : Nat) : (m.erase i).wf :=
  ⟨h.1.filter _, fun c hc => h.2 c (List.mem_filter.1 hc).1⟩

theorem Memory.mem_insert {c d : Host.Cell} {m : Memory} : d ∈ Memory.insert c m ↔ d = c ∨ d ∈ m := by
  induction m with
  | nil => simp [Memory.insert]
  | cons e m ih =>
    unfold Memory.insert
    split
    · simp
    · simp only [List.mem_cons, ih]; tauto

theorem Memory.pairwise_insert {c : Host.Cell} {m : Memory} (h : m.Pairwise (fun c d => c.1 < d.1))
    (hc : ∀ d ∈ m, d.1 ≠ c.1) : (Memory.insert c m).Pairwise (fun c d => c.1 < d.1) := by
  induction m with
  | nil => simp [Memory.insert]
  | cons d m ih =>
    obtain ⟨hd, hm⟩ := List.pairwise_cons.1 h
    unfold Memory.insert
    split
    · rename_i hlt
      refine List.pairwise_cons.2 ⟨fun e he => ?_, h⟩
      obtain rfl | he := List.mem_cons.1 he
      · exact hlt
      · exact lt_trans hlt (hd e he)
    · rename_i hlt
      refine List.pairwise_cons.2 ⟨fun e he => ?_, ih hm (fun x hx => hc x (List.mem_cons_of_mem _ hx))⟩
      obtain rfl | he := Memory.mem_insert.1 he
      · have := hc d List.mem_cons_self; omega
      · exact hd e he

/-- Every write keeps the canonical form. -/
theorem Memory.wf_write {m : Memory} (h : m.wf) (i : Nat) (v : Byte) : (m.write i v).wf := by
  have he := Memory.wf_erase h i
  unfold Memory.write
  split
  · exact he
  · rename_i hv
    refine ⟨Memory.pairwise_insert he.1 (fun d hd => by simpa using (List.mem_filter.1 hd).2), fun c hc => ?_⟩
    obtain rfl | hc := Memory.mem_insert.1 hc
    · exact hv
    · exact he.2 c hc

theorem Memory.within_write {m : Memory} {n : Nat} (h : m.within n) {i : Nat} (hi : i < n) (v : Byte) :
    (m.write i v).within n := by
  unfold Memory.write
  split
  · exact fun c hc => h c (List.mem_filter.1 hc).1
  · intro c hc
    obtain rfl | hc := Memory.mem_insert.1 hc
    · exact hi
    · exact h c (List.mem_filter.1 hc).1

theorem Memory.wf_writeSlice {m : Memory} (h : m.wf) (i : Nat) (bs : List Byte) : (m.writeSlice i bs).wf := by
  induction bs generalizing m i with
  | nil => exact h
  | cons b bs ih => exact ih (Memory.wf_write h i b) (i + 1)

theorem Memory.within_writeSlice {m : Memory} {n : Nat} (h : m.within n) {i : Nat} {bs : List Byte}
    (hi : i + bs.length ≤ n) : (m.writeSlice i bs).within n := by
  induction bs generalizing m i with
  | nil => exact h
  | cons b bs ih =>
    simp only [List.length_cons] at hi
    exact ih (Memory.within_write h (by omega) b) (by omega)

end Sys2Proof.Machine
end

