-- ==== Sys2Proof/Laws/Dispatcher.lean ====
section
/-! SUPPORT. What a dispatch does, as one equation for each of its operations. -/

namespace Sys2Proof.Machine

/-- The codes a check of the pins can answer. -/
theorem checkPins_mem (k : Pins) (s : State) : checkPins k s ∈ [ErrCode.none, .invalidLength, .invalidChannel] := by
  unfold checkPins
  split_ifs <;> simp

/-- The pinned length is not the frame's. -/
theorem checkPins_length {k : Pins} {s : State} {n : Nat} (hk : k.len = some n) (h : s.frmPlen ≠ n) :
    checkPins k s = .invalidLength := by
  simp [checkPins, hk, h]

/-- The length agrees and the pinned channel is not the frame's. -/
theorem checkPins_channel {k : Pins} {s : State} {c : Byte} (hl : ∀ n, k.len = some n → s.frmPlen = n)
    (hk : k.ch = some c) (h : s.frmCh ≠ c) : checkPins k s = .invalidChannel := by
  have : k.len.any (fun n => s.frmPlen != n) = false := by
    cases hn : k.len with
    | none => rfl
    | some n => simp [hl n hn]
  simp [checkPins, this, hk, h]

/-- The frame has what the entry pins. -/
theorem checkPins_none {k : Pins} {s : State} : checkPins k s = .none ↔
    (∀ n, k.len = some n → s.frmPlen = n) ∧ (∀ c, k.ch = some c → s.frmCh = c) := by
  obtain ⟨l, c⟩ := k
  cases l <;> cases c <;> simp only [checkPins, Option.any] <;> split_ifs <;> simp_all

/-- A dispatch's record, as one update. -/
theorem recordMsg_eq (v : Variant) (k : Pins) (sub : SubVariant) (s : State) :
    recordMsg v k sub s =
      { s with msgAny := true, msgVariant := v, msgErr := checkPins k s,
               msgSub := if checkPins k s = .none then sub else s.msgSub,
               events := { s.events with msg := true } } := by
  have h := checkPins_mem k s
  unfold recordMsg
  generalize checkPins k s = e at h ⊢
  simp only [List.mem_cons, List.not_mem_nil, or_false] at h
  obtain rfl | rfl | rfl := h <;> rfl

/-- A payload that does not differ from the snapshot has a valid snapshot to agree with. -/
theorem stValid_of_not_snapshotDiffers {p : List Byte} {s : State} (h : snapshotDiffers p s = false) : s.stValid = true := by
  unfold snapshotDiffers at h
  cases hv : s.stValid <;> simp_all

/-- A record does not bear on whether the snapshot differs. -/
@[simp] theorem snapshotDiffers_recordMsg (p : List Byte) (v : Variant) (k : Pins) (sub : SubVariant) (s : State) :
    snapshotDiffers p (recordMsg v k sub s) = snapshotDiffers p s := by
  simp [snapshotDiffers]

/-- The snapshot's update, as one update. -/
theorem statusUnpack_eq (p : List Byte) (s : State) :
    statusUnpack p s =
      { s with stSnap := if snapshotDiffers p s then s.stSnap.writeSlice 0 p else s.stSnap,
               stValid := true, stChanged := snapshotDiffers p s, events := { s.events with status := true } } := by
  unfold statusUnpack
  cases h : snapshotDiffers p s with
  | true => rfl
  | false =>
    have hv := stValid_of_not_snapshotDiffers h
    obtain ⟨⟩ := s
    cases hv
    rfl

/-- When a status payload counts as changed. -/
theorem snapshotDiffers_iff (s : State) :
    snapshotDiffers (statusPayload s) s = true ↔
      s.stValid = false ∨ ∃ i : Nat, i < Config.statusLen ∧ s.stSnap.read i ≠ s.frmPayload.read i := by
  unfold snapshotDiffers statusPayload
  rw [Bool.or_eq_true, Bool.not_eq_true', bne_iff_ne, ne_eq]
  refine or_congr Iff.rfl ⟨fun h => ?_, fun ⟨i, hi, h⟩ he => h ?_⟩
  · by_contra hn
    push Not at hn
    exact h (Memory.readSlice_congr fun j _ hj => hn j (by omega))
  · have h₁ := Memory.getElem_readSlice s.stSnap 0 Config.statusLen i (by simpa using hi)
    have h₂ := Memory.getElem_readSlice s.frmPayload 0 Config.statusLen i (by simpa using hi)
    simp only [he] at h₁
    rw [h₁, Nat.zero_add] at h₂
    exact h₂

/-- What every variant does: its record, and for a matched StatusUpdate the snapshot's update. -/
theorem runVariant_eq (v : Variant) (k : Pins) (s : State) :
    runVariant v k s =
      .next (if v = .statusUpdate ∧ checkPins k s = .none then
          statusUnpack (statusPayload s) (recordMsg v k .generic s)
        else recordMsg v k (if v = .settingsRequest then payloadSubVariant s else .generic) s) := by
  cases v
  case statusUpdate =>
    simp only [runVariant, execStatusUpdate]
    split_ifs <;> simp_all
  all_goals simp [runVariant, execNewClientClearToSend, execChannelAssignmentRequest, execChannelAssignmentResponse,
    execChannelAssignmentAcknowledgement, execExistingClientRequest, execExistingClientResponse, execClientClearToSend,
    execNothingToSend, execToggleItem, execSetTemperature, execSetTime, execSettingsRequest, execFilterCycles,
    execInformationResponse, execPreferencesResponse, execConfigurationResponse, execFaultLogResponse]

/-- An unmapped code's record, as one update. -/
theorem execUnknownType_eq (t : Byte) (s : State) :
    execUnknownType t s =
      .next { s with msgAny := true, msgErr := .unknownTypeCode, events := { s.events with msg := true } } := rfl

/-- Everything a dispatch can do: it answers, it leaves every element but the message's and the snapshot's, and the
snapshot changes only with a changed `ev_status`, on a matched message. -/
theorem dispatch_spec (s : State) : ∃ t, dispatch s = .next t ∧
    t = { s with msgAny := true, msgErr := t.msgErr, msgVariant := t.msgVariant, msgSub := t.msgSub,
                 stValid := t.stValid, stSnap := t.stSnap, stChanged := t.stChanged,
                 events := { s.events with msg := true, status := t.events.status } } ∧
    t.msgErr ∈ [ErrCode.none, .unknownTypeCode, .invalidLength, .invalidChannel] ∧
    ((t.events.status = s.events.status ∧ t.stValid = s.stValid ∧ t.stSnap = s.stSnap ∧ t.stChanged = s.stChanged) ∨
      (t.events.status = true ∧ t.msgErr = .none ∧ t.stValid = true ∧
        ((t.stChanged = false ∧ s.stValid = true ∧ t.stSnap = s.stSnap) ∨
          (t.stChanged = true ∧ t.stSnap = s.stSnap.writeSlice 0 (statusPayload s))))) := by
  unfold dispatch
  cases s.params.typeMap.entry s.frmType with
  | none => exact ⟨_, rfl, rfl, by simp [raiseError], .inl ⟨rfl, rfl, rfl, rfl⟩⟩
  | some e =>
    have hm := checkPins_mem e.pins s
    have hm' : checkPins e.pins s ∈ [ErrCode.none, .unknownTypeCode, .invalidLength, .invalidChannel] := by
      simp only [List.mem_cons, List.not_mem_nil, or_false] at hm ⊢; tauto
    simp only [runVariant_eq]
    refine ⟨_, rfl, ?_⟩
    by_cases h : e.variant = .statusUpdate ∧ checkPins e.pins s = .none
    · rw [if_pos h, statusUnpack_eq, snapshotDiffers_recordMsg, recordMsg_eq]
      refine ⟨rfl, hm', .inr ⟨rfl, h.2, rfl, ?_⟩⟩
      cases hd : snapshotDiffers (statusPayload s) s with
      | true => exact .inr ⟨rfl, rfl⟩
      | false => exact .inl ⟨rfl, stValid_of_not_snapshotDiffers hd, rfl⟩
    · rw [if_neg h, recordMsg_eq]
      exact ⟨rfl, hm', .inl ⟨rfl, rfl, rfl, rfl⟩⟩

end Sys2Proof.Machine
end

