-- ==== Sys2Proof/Laws/Receiver.lean ====
section
/-! SUPPORT. What the frame checker and a candidate's completion answer. -/

namespace Sys2Proof.Machine

/-! ### The frame checker -/

/-- Everything a good verdict says about the candidate (41_frame_rx.md R155). -/
theorem frameCheck_ok {cnt : Nat} {buf : Memory} {lastb : Byte} {f : GoodFrame}
    (h : frameCheck cnt buf lastb = .ok f) :
    7 ≤ cnt ∧ buf.read 0 = Config.delim ∧ lastb = Config.delim ∧ (buf.read 1).toNat = cnt - 2 ∧
      crc8 (buf.readSlice 1 (cnt - 3)) = buf.read (cnt - 2) ∧
      f = ⟨buf.read 2, buf.read 3, buf.read 4, buf.readSlice 5 (cnt - 7), buf.read (cnt - 2)⟩ := by
  unfold frameCheck at h
  split_ifs at h with h₁ h₂
  push Not at h₁ h₂
  dsimp only at h
  split_ifs at h with h₃
  push Not at h₃
  obtain ⟨h₁, h₄, h₅⟩ := h₁
  cases h
  refine ⟨h₁, h₄, h₅, h₂, h₃, ?_⟩
  rw [h₂]
  rfl

/-- A candidate that passes every check (41_frame_rx.md R155). -/
theorem frameCheck_eq_ok {cnt : Nat} {buf : Memory} {lastb : Byte} (h₁ : 7 ≤ cnt) (h₂ : buf.read 0 = Config.delim)
    (h₃ : lastb = Config.delim) (h₄ : (buf.read 1).toNat = cnt - 2)
    (h₅ : crc8 (buf.readSlice 1 (cnt - 3)) = buf.read (cnt - 2)) :
    frameCheck cnt buf lastb =
      .ok ⟨buf.read 2, buf.read 3, buf.read 4, buf.readSlice 5 (cnt - 7), buf.read (cnt - 2)⟩ := by
  unfold frameCheck
  rw [if_neg (by simp [h₂, h₃]; omega), if_neg (by simp [h₄]), h₅]
  simp only [ne_eq, not_true, if_false, h₄]
  rfl

/-- A good candidate is no longer than the buffer, and its payload fits. -/
theorem frameCheck_ok_length {cnt : Nat} {buf : Memory} {lastb : Byte} {f : GoodFrame}
    (h : frameCheck cnt buf lastb = .ok f) : cnt = f.payload.length + 7 ∧ f.payload.length ≤ Config.maxPayload := by
  obtain ⟨h₁, -, -, h₄, -, rfl⟩ := frameCheck_ok h
  have := (buf.read 1).isLt
  simp only [Memory.length_readSlice]
  refine ⟨by omega, ?_⟩
  change _ ≤ 250
  omega

/-- The checker looks only at the candidate's bytes. -/
theorem frameCheck_congr {cnt : Nat} {buf buf' : Memory} {lastb : Byte}
    (h : ∀ i, i < cnt → i < Config.rxBufBytes → buf.read i = buf'.read i) :
    frameCheck cnt buf lastb = frameCheck cnt buf' lastb := by
  unfold frameCheck
  by_cases hc : cnt < Config.minFrame
  · rw [if_pos (.inl hc), if_pos (.inl hc)]
  · have hc' : 7 ≤ cnt := Nat.le_of_not_lt hc
    rw [h 0 (by omega) (by decide), h 1 (by omega) (by decide), h 2 (by omega) (by decide),
      h 3 (by omega) (by decide), h 4 (by omega) (by decide)]
    by_cases hl : (buf'.read 1).toNat ≠ cnt - 2
    · simp only [if_pos hl]
    · have h₄ : (buf'.read 1).toNat = cnt - 2 := not_not.1 hl
      have hb := (buf'.read 1).isLt
      rw [h (cnt - 2) (by omega) (by change _ < 257; omega),
        Memory.readSlice_congr (m := buf) (m' := buf') (i := 1) (n := cnt - 3)
          (fun j _ hj => h j (by omega) (by change _ < 257; omega)),
        Memory.readSlice_congr (m := buf) (m' := buf') (i := 5) (n := (buf'.read 1).toNat - Config.hdrOverhead)
          (fun j _ hj => by
            replace hj : j < 5 + ((buf'.read 1).toNat - 5) := hj
            exact h j (by omega) (by change _ < 257; omega))]

/-! ### The completion of a candidate -/

theorem complete_framingError {s : State} (h : frameCheck s.rxCnt s.rxBuf s.rxLastb = .framingError) :
    complete s = .next (rearm (raiseError .framingError (countCandidate s))) := by
  unfold complete; rw [h]

theorem complete_lengthError {s : State} (h : frameCheck s.rxCnt s.rxBuf s.rxLastb = .lengthError) :
    complete s = .next (rearm (raiseError .lengthError (countCandidate s))) := by
  unfold complete; rw [h]

theorem complete_checksumError {s : State} {crcRx crcCalc : Byte}
    (h : frameCheck s.rxCnt s.rxBuf s.rxLastb = .checksumError crcRx crcCalc) :
    complete s = .next (rearm (raiseError .checksumError
      { countCandidate s with frmCrcRx := crcRx, frmCrcCalc := crcCalc })) := by
  unfold complete; rw [h]

/-- A good candidate is latched and dispatched. -/
theorem complete_ok {s v : State} {f : GoodFrame} (h : frameCheck s.rxCnt s.rxBuf s.rxLastb = .ok f)
    (hd : dispatch (latchFrame f (countCandidate s)) = .next v) : complete s = .next (rearm v) := by
  unfold complete; rw [h]
  simp only [hd]; rfl

/-- Everything a completion can do: it answers, it counts the candidate and returns to HUNT, and it leaves the other
parts as they were; a failed one leaves the last good frame, its message and the snapshot; a good one emits `ev_msg`,
and the snapshot changes only with a changed `ev_status`. -/
theorem complete_spec (s : State) : ∃ t, complete s = .next t ∧
    t = { s with
      rxState := .hunt, rxCnt := 0, rxNeed := 0#8,
      frmAny := true, frmSeq := s.frmSeq + 1#8, frmErr := t.frmErr, frmCnt := s.rxCnt,
      frmCh := t.frmCh, frmFlag := t.frmFlag, frmType := t.frmType, frmPlen := t.frmPlen,
      frmPayload := t.frmPayload, frmCrcRx := t.frmCrcRx, frmCrcCalc := t.frmCrcCalc,
      msgAny := t.msgAny, msgErr := t.msgErr, msgVariant := t.msgVariant, msgSub := t.msgSub,
      stValid := t.stValid, stSnap := t.stSnap, stChanged := t.stChanged,
      events := { s.events with frame := true, msg := t.events.msg, status := t.events.status } } ∧
    ((t.frmErr ∈ [ErrCode.framingError, .lengthError, .checksumError] ∧
        (∀ f, frameCheck s.rxCnt s.rxBuf s.rxLastb ≠ .ok f) ∧
        t = { s with
          rxState := .hunt, rxCnt := 0, rxNeed := 0#8,
          frmAny := true, frmSeq := s.frmSeq + 1#8, frmErr := t.frmErr, frmCnt := s.rxCnt,
          frmCrcRx := t.frmCrcRx, frmCrcCalc := t.frmCrcCalc, events := { s.events with frame := true } }) ∨
      (t.frmErr = .none ∧ ∃ f, frameCheck s.rxCnt s.rxBuf s.rxLastb = .ok f ∧
        t.frmCh = f.ch ∧ t.frmFlag = f.flag ∧ t.frmType = f.type ∧ t.frmPlen = f.payload.length ∧
        t.frmPayload = s.frmPayload.writeSlice 0 f.payload ∧ t.frmCrcRx = f.crc ∧ t.frmCrcCalc = f.crc ∧
        t.msgAny = true ∧ t.events.msg = true ∧
        t.msgErr ∈ [ErrCode.none, .unknownTypeCode, .invalidLength, .invalidChannel] ∧
        ((t.events.status = s.events.status ∧ t.stValid = s.stValid ∧ t.stSnap = s.stSnap ∧
            t.stChanged = s.stChanged) ∨
          (t.events.status = true ∧ t.msgErr = .none ∧ t.stValid = true ∧
            ((t.stChanged = false ∧ s.stValid = true ∧ t.stSnap = s.stSnap) ∨
              (t.stChanged = true ∧
                ∃ p : List Byte, p.length = Config.statusLen ∧ t.stSnap = s.stSnap.writeSlice 0 p)))))) := by
  cases h : frameCheck s.rxCnt s.rxBuf s.rxLastb with
  | framingError => exact ⟨_, complete_framingError h, rfl, .inl ⟨by simp [raiseError], by simp, rfl⟩⟩
  | lengthError => exact ⟨_, complete_lengthError h, rfl, .inl ⟨by simp [raiseError], by simp, rfl⟩⟩
  | checksumError a b => exact ⟨_, complete_checksumError h, rfl, .inl ⟨by simp [raiseError], by simp, rfl⟩⟩
  | ok f =>
    obtain ⟨v, hv, hv', he, hs⟩ := dispatch_spec (latchFrame f (countCandidate s))
    refine ⟨_, complete_ok h hv, by rw [hv']; rfl, .inr ⟨by rw [hv']; rfl, f, rfl, ?_⟩⟩
    refine ⟨by rw [hv']; rfl, by rw [hv']; rfl, by rw [hv']; rfl, by rw [hv']; rfl, by rw [hv']; rfl, by rw [hv']; rfl,
      by rw [hv']; rfl, by rw [hv']; rfl, by rw [hv']; rfl, he, ?_⟩
    obtain h₁ | ⟨h₁, h₂, h₃, h₄⟩ := hs
    · exact .inl h₁
    · exact .inr ⟨h₁, h₂, h₃, h₄.imp id fun h₅ => ⟨h₅.1, _, by simp [statusPayload], h₅.2⟩⟩

/-! ### The receive steps, by case -/

theorem execRxScanHunt_delim (l : Bool) (s : State) :
    execRxScanHunt l Config.delim s =
      .next { s with rxBuf := s.rxBuf.write 0 Config.delim, rxCnt := 1, rxState := .gotStart } := if_pos rfl

theorem execRxScanHunt_other {b : Byte} (h : b ≠ Config.delim) (l : Bool) (s : State) :
    execRxScanHunt l b s = .next s := if_neg h

theorem execRxScanLength_nonzero {b : Byte} (h : b ≠ 0x00#8) (l : Bool) (s : State) :
    execRxScanLength l b s = .next { s with rxBuf := s.rxBuf.write 1 b, rxCnt := 2, rxNeed := b, rxLastb := b,
                                            rxState := .collect } := if_neg h

/-- A zero length byte completes the candidate. -/
theorem execRxScanLength_complete (l : Bool) (s : State) :
    execRxScanLength l 0x00#8 s = complete
      { s with rxBuf := s.rxBuf.write 1 0x00#8, rxCnt := 2, rxNeed := 0x00#8, rxLastb := 0x00#8 } := by
  unfold execRxScanLength
  exact if_pos rfl

/-- A zero length byte completes a candidate of two bytes, which is too short. -/
theorem execRxScanLength_zero (l : Bool) (s : State) :
    execRxScanLength l 0x00#8 s = .next (rearm (raiseError .framingError (countCandidate
      { s with rxBuf := s.rxBuf.write 1 0x00#8, rxCnt := 2, rxNeed := 0x00#8, rxLastb := 0x00#8 }))) := by
  rw [execRxScanLength_complete]
  refine complete_framingError ?_
  exact if_pos (.inl (show 2 < 7 by decide))

theorem execRxScanCollect_more {s : State} (h : s.rxCnt < Config.rxBufBytes) (hn : s.rxNeed ≠ 1#8) (l : Bool) (b : Byte) :
    execRxScanCollect l b s = .next { s with rxBuf := s.rxBuf.write s.rxCnt b, rxCnt := s.rxCnt + 1,
                                             rxNeed := s.rxNeed - 1#8, rxLastb := b } := by
  have hn' : ¬ s.rxNeed - 1#8 = 0#8 := fun h => hn (by bv_omega)
  unfold execRxScanCollect
  rw [if_pos h]
  exact if_neg hn'

theorem execRxScanCollect_last {s : State} (h : s.rxCnt < Config.rxBufBytes) (hn : s.rxNeed = 1#8) (l : Bool) (b : Byte) :
    execRxScanCollect l b s = complete { s with rxBuf := s.rxBuf.write s.rxCnt b, rxCnt := s.rxCnt + 1,
                                                rxNeed := 0#8, rxLastb := b } := by
  unfold execRxScanCollect
  rw [if_pos h, hn]
  rfl

theorem execRxScanCollect_outside {s : State} (h : ¬ s.rxCnt < Config.rxBufBytes) (l : Bool) (b : Byte) :
    execRxScanCollect l b s = .fault .bufferIndex := if_neg h

/-- Every completion answers a next state. -/
theorem complete_next (s : State) : ∃ t, complete s = .next t :=
  let ⟨t, h, _⟩ := complete_spec s
  ⟨t, h⟩

end Sys2Proof.Machine
end

