-- ==== Sys2Proof/Laws/Transmitter.lean ====
section
/-! SUPPORT. The encoded frame's length and layout, and what the transmitter's operations answer. -/

namespace Sys2Proof.Machine

@[simp] theorem length_frameBody (ch t : Byte) (pl : List Byte) : (frameBody ch t pl).length = pl.length + 4 := by
  simp [frameBody]

@[simp] theorem length_encodeFrame (ch t : Byte) (pl : List Byte) : (encodeFrame ch t pl).length = pl.length + 7 := by
  simp [encodeFrame]

/-- The frame's bytes one by one (30_encoding.md R80). -/
theorem encodeFrame_eq (ch t : Byte) (pl : List Byte) :
    encodeFrame ch t pl =
      [0x7E#8, BitVec.ofNat 8 (pl.length + 5), ch, flagOf ch, t] ++ pl ++ [crc8 (frameBody ch t pl), 0x7E#8] := by
  simp [encodeFrame, frameBody, Config.hdrOverhead, Config.delim]

/-- The frame's payload bytes. -/
theorem encodeFrame_payload (ch t : Byte) (pl : List Byte) {i : Nat} (hi : i < pl.length) :
    (encodeFrame ch t pl)[5 + i]'(by rw [length_encodeFrame]; omega) = pl[i] := by
  simp only [encodeFrame_eq]
  rw [List.getElem_append_left (by simp; omega), List.getElem_append_right (by simp)]
  simp

theorem encodeFrame_crc (ch t : Byte) (pl : List Byte) :
    (encodeFrame ch t pl)[5 + pl.length]'(by rw [length_encodeFrame]; omega) = crc8 (frameBody ch t pl) := by
  simp only [encodeFrame_eq]
  rw [List.getElem_append_right (by simp; omega)]
  simp only [List.length_append, List.length_cons, List.length_nil]
  have : 5 + pl.length - (0 + 1 + 1 + 1 + 1 + 1 + pl.length) = 0 := by omega
  simp only [this]
  rfl

theorem encodeFrame_last (ch t : Byte) (pl : List Byte) :
    (encodeFrame ch t pl)[6 + pl.length]'(by rw [length_encodeFrame]; omega) = 0x7E#8 := by
  simp only [encodeFrame_eq]
  rw [List.getElem_append_right (by simp; omega)]
  simp only [List.length_append, List.length_cons, List.length_nil]
  have : 6 + pl.length - (0 + 1 + 1 + 1 + 1 + 1 + pl.length) = 1 := by omega
  simp only [this]
  rfl

/-- The bytes the checksum covers are the frame's after the opening delimiter. -/
theorem encodeFrame_body (ch t : Byte) (pl : List Byte) :
    ((encodeFrame ch t pl).drop 1).take (pl.length + 4) = frameBody ch t pl := by
  rw [encodeFrame, List.drop_succ_cons, List.drop_zero, List.take_append_of_le_length (by simp)]
  exact List.take_of_length_le (by simp)

/-- The length byte (30_encoding.md R80). -/
theorem lengthByte_toNat {n : Nat} (h : n ≤ 250) : (BitVec.ofNat 8 (n + 5)).toNat = n + 5 := by
  rw [BitVec.toNat_ofNat]
  exact Nat.mod_eq_of_lt (by omega)

/-- The ghost bits of the staged payload (42_frame_tx.md R184). -/
theorem stagedWritten_iff (s : State) (n : Nat) : stagedWritten s n = true ↔ ∀ i : Nat, i < n → s.txPlW.getLsbD i = true := by
  simp [stagedWritten]

/-- The ghost bits after a staging write. -/
theorem execTxWrite_ghost (w : BitVec 256) (i : Byte) (j : Nat) :
    (w ||| (1#256 <<< i.toNat)).getLsbD j = (w.getLsbD j || decide (j = i.toNat)) := by
  have hi := i.isLt
  rw [BitVec.getLsbD_or, BitVec.getLsbD_shiftLeft, BitVec.getLsbD_one]
  by_cases h : j = i.toNat
  · subst h; simp; omega
  · by_cases h' : j < i.toNat
    · simp [h, h']
    · have : ¬ j - i.toNat = 0 := by omega
      simp [h, this]

end Sys2Proof.Machine
end

