-- ==== Sys2Proof/Laws/Frames.lean ====
section
/-! SUPPORT. The frame checker on the buffer is the source's `decode` on the bytes received. -/

namespace Sys2Proof.Machine

/-- A buffer that holds a sequence's first 257 bytes, its saturated length and its last byte decide the verdict of
`decodeSpan` (41_frame_rx.md R155, R157). -/
theorem frameCheck_eq_decodeSpan {bs : List Byte} {buf : Memory} {lastb : Byte} (hne : bs ≠ [])
    (hb : ∀ i (hi : i < bs.length), i < Config.rxBufBytes → buf.read i = bs[i])
    (hl : lastb = bs.getLast hne) :
    frameCheck (min bs.length Config.cntSat) buf lastb = decodeSpan bs := by
  have hpos : 0 < bs.length := List.length_pos_iff.2 hne
  have hhead : bs.head? = some (bs[0]'hpos) := by
    rw [List.head?_eq_getElem?, List.getElem?_eq_getElem hpos]
  have hlast : bs.getLast? = some lastb := by rw [hl, List.getLast?_eq_some_getLast hne]
  have h0 : buf.read 0 = bs[0] := hb 0 hpos (by decide)
  unfold frameCheck decodeSpan
  by_cases hc : min bs.length Config.cntSat < Config.minFrame ∨ buf.read 0 ≠ Config.delim ∨ lastb ≠ Config.delim
  · rw [if_pos hc, if_pos]
    rw [hhead, hlast, ← h0]
    simp only [ne_eq, Option.some.injEq]
    refine hc.imp (fun h => ?_) id
    replace h : min bs.length 258 < 7 := h
    omega
  · have hc' : ¬ (bs.length < 7 ∨ bs.head? ≠ some 0x7E#8 ∨ bs.getLast? ≠ some 0x7E#8) := by
      rw [hhead, hlast, ← h0]
      simp only [ne_eq, Option.some.injEq]
      refine fun h => hc (h.imp (fun h => ?_) id)
      change min bs.length 258 < 7
      omega
    rw [if_neg hc, if_neg hc']
    have h7 : 7 ≤ bs.length := by
      have : ¬ min bs.length 258 < 7 := fun h => hc (.inl h)
      omega
    have hg : ∀ i (hi : i < bs.length), bs.getD i 0#8 = bs[i] := fun i hi => by
      rw [List.getD_eq_getElem?_getD, List.getElem?_eq_getElem hi]; rfl
    have hd : ∀ i, i < bs.length → i < 257 → buf.read i = bs.getD i 0#8 := fun i hi h => by
      rw [hb i hi h, hg i hi]
    rw [hd 1 (by omega) (by decide)]
    have hlt := (bs.getD 1 0#8).isLt
    by_cases hlen : (bs.getD 1 0#8).toNat = bs.length - 2
    · have hm : min bs.length Config.cntSat = bs.length := Nat.min_eq_left (show bs.length ≤ 258 by omega)
      rw [hm]
      have hs : ∀ i n, i + n ≤ bs.length → i + n ≤ 257 → buf.readSlice i n = (bs.drop i).take n := by
        intro i n h₁ h₂
        apply List.ext_getElem (by simp; omega)
        intro k hk _
        rw [Memory.getElem_readSlice, hb (i + k) (by simp at hk; omega) (show i + k < 257 by simp at hk; omega)]
        simp
      rw [if_neg (not_not.2 hlen), if_neg (not_not.2 hlen), hd (bs.length - 2) (by omega) (by omega), hd 2 (by omega) (by decide),
        hd 3 (by omega) (by decide), hd 4 (by omega) (by decide), hs 1 _ (by omega) (by omega), hlen,
        hs 5 (bs.length - 2 - Config.hdrOverhead) (show 5 + (bs.length - 2 - 5) ≤ _ by omega)
          (show 5 + (bs.length - 2 - 5) ≤ _ by omega)]
      rfl
    · rw [if_pos (by change ¬ _ = min bs.length 258 - 2; omega), if_pos hlen]

end Sys2Proof.Machine
end

