-- ==== Sys2Proof/Laws/Outputs.lean ====
section
/-! SUPPORT. Which elements each output the host reads is a function of. -/

namespace Sys2Proof.Machine

/-- tx_valid depends on tx_idx and tx_len. -/
theorem txValid_congr {s t : State} (hi : t.txIdx = s.txIdx) (hl : t.txLen = s.txLen) : txValid t = txValid s := by
  unfold txValid txBusy
  rw [hi, hl]

/-- tx_data depends on tx_idx, tx_len and tx_frame. -/
theorem txData_congr {s t : State} (hi : t.txIdx = s.txIdx) (hl : t.txLen = s.txLen) (hf : t.txFrame = s.txFrame)
    (draw : Byte) : txData draw t = txData draw s := by
  unfold txData
  rw [txValid_congr hi hl, hi, hf]

/-- A host read of frm_payload depends on it and on frm_plen. -/
theorem hostReadPayload_congr {s t : State} (hl : t.frmPlen = s.frmPlen) (hp : t.frmPayload = s.frmPayload)
    (draw : Byte) (i : Nat) : hostReadPayload draw i t = hostReadPayload draw i s := by
  unfold hostReadPayload
  rw [hl, hp]

/-- A host read of st_snap depends on it, on st_valid and on which reset was the last. -/
theorem hostReadSnapshot_congr {s t : State} (hr : t.resets = s.resets) (hv : t.stValid = s.stValid)
    (hs : t.stSnap = s.stSnap) (i : Nat) : hostReadSnapshot i t = hostReadSnapshot i s := by
  unfold hostReadSnapshot
  rw [hr, hv, hs]

/-- A host read of byte `i` of tx_pl depends on that byte, on its ghost bit and on which reset was the last. -/
theorem hostReadStaging_congr {s t : State} {i : Nat} (hr : t.resets = s.resets)
    (hw : t.txPlW.getLsbD i = s.txPlW.getLsbD i) (hp : t.txPl.read i = s.txPl.read i) :
    hostReadStaging i t = hostReadStaging i s := by
  unfold hostReadStaging
  rw [hr, hw, hp]

end Sys2Proof.Machine
end

