-- ==== Sys2Proof/Laws/Parts.lean ====
section
/-! SUPPORT. Everything an operation of each part can write, as one equation per part. -/

namespace Sys2Proof.Machine

/-- `t` differs from `s` at most in the receiver's, the message's and the snapshot's elements. -/
def ReceiverOnly (s t : State) : Prop :=
    t = { s with
      rxState := t.rxState, rxCnt := t.rxCnt, rxNeed := t.rxNeed, rxBuf := t.rxBuf, rxLastb := t.rxLastb,
      frmAny := t.frmAny, frmSeq := t.frmSeq, frmErr := t.frmErr, frmCnt := t.frmCnt,
      frmCh := t.frmCh, frmFlag := t.frmFlag, frmType := t.frmType, frmPlen := t.frmPlen,
      frmPayload := t.frmPayload, frmCrcRx := t.frmCrcRx, frmCrcCalc := t.frmCrcCalc,
      msgAny := t.msgAny, msgErr := t.msgErr, msgVariant := t.msgVariant, msgSub := t.msgSub,
      stValid := t.stValid, stSnap := t.stSnap, stChanged := t.stChanged,
      events := { s.events with frame := t.events.frame, msg := t.events.msg, status := t.events.status } }

/-- `t` differs from `s` at most in the message's and the snapshot's elements. -/
def DispatcherOnly (s t : State) : Prop :=
    t = { s with
      msgAny := t.msgAny, msgErr := t.msgErr, msgVariant := t.msgVariant, msgSub := t.msgSub,
      stValid := t.stValid, stSnap := t.stSnap, stChanged := t.stChanged,
      events := { s.events with msg := t.events.msg, status := t.events.status } }

/-- `t` differs from `s` at most in what a host command can write. -/
def CommandOnly (s t : State) : Prop :=
    t = { s with
      crcReg := t.crcReg, cfgPumpPresent := t.cfgPumpPresent, cfgCapEn := t.cfgCapEn,
      txPl := t.txPl, txPlW := t.txPlW, txFrame := t.txFrame, txLen := t.txLen, txIdx := t.txIdx, txErr := t.txErr,
      events := { s.events with txStart := t.events.txStart, txErr := t.events.txErr, cmdErr := t.events.cmdErr } }

/-- `t` differs from `s` at most in tx_idx and TX_POP's events. -/
def PopOnly (s t : State) : Prop :=
    t = { s with txIdx := t.txIdx, events := { s.events with txByte := t.events.txByte, txDone := t.events.txDone } }

/-- The receive port selects a receive operation. -/
theorem decodeRx_part (src : RxSource) (st : RxState) (w : BitVec 10) : instrPart (decodeRx src st w) = .receiver := by
  unfold decodeRx
  dsimp only
  split
  · cases src with
    | scan =>
      cases st
      · rfl
      · simp only [decodeScan]; split <;> rfl
      · rfl
    | span => rfl
  · rfl

/-- A command word selects a command. -/
theorem decodeCommand_isCommand {w : CmdWord} {i : Instr} (h : decodeCommand w = .ok i) : isCommand i = true := by
  unfold decodeCommand unlessReserved at h
  split at h <;> first | (cases h; rfl) | (split at h <;> first | (cases h; rfl) | cases h)

/-- A receive operation writes only the receiver's, the message's and the snapshot's elements. -/
theorem exec_receiver {i : Instr} {s t : State} (hi : instrPart i = .receiver) (h : exec i s = .next t) :
    ReceiverOnly s t := by
  have hc : ∀ u : State, complete u = .next t →
      u = { s with rxCnt := u.rxCnt, rxNeed := u.rxNeed, rxBuf := u.rxBuf, rxLastb := u.rxLastb } → ReceiverOnly s t :=
    fun u hu he => by
      obtain ⟨t', ht, ht', -⟩ := complete_spec u
      obtain rfl : t' = t := by simpa [ht] using hu
      unfold ReceiverOnly
      rw [ht', he]
  cases i <;> simp only [instrPart, reduceCtorEq] at hi
  case rxScanHunt l b =>
    by_cases hb : b = Config.delim
    · subst hb
      cases (execRxScanHunt_delim l s).symm.trans h; rfl
    · cases (execRxScanHunt_other hb l s).symm.trans h; rfl
  case rxScanResync l => cases h; rfl
  case rxScanLength l b =>
    by_cases hb : b = 0x00#8
    · subst hb
      cases (execRxScanLength_zero l s).symm.trans h; rfl
    · cases (execRxScanLength_nonzero hb l s).symm.trans h; rfl
  case rxScanCollect l b =>
    by_cases h₁ : s.rxCnt < Config.rxBufBytes
    · by_cases h₂ : s.rxNeed = 1#8
      · exact hc _ ((execRxScanCollect_last h₁ h₂ l b).symm.trans h) rfl
      · cases (execRxScanCollect_more h₁ h₂ l b).symm.trans h; rfl
    · cases (execRxScanCollect_outside h₁ l b).symm.trans h
  case rxSpan l b =>
    cases l with
    | true => exact hc _ h rfl
    | false => cases h; rfl
  case rxIdle l b => cases h; rfl

/-- A dispatch operation writes only the message's and the snapshot's elements. -/
theorem exec_dispatcher {i : Instr} {s t : State} (hi : instrPart i = .dispatcher) (h : exec i s = .next t) :
    DispatcherOnly s t := by
  have hv : ∀ v k, runVariant v k s = .next t → DispatcherOnly s t := fun v k hr => by
    rw [runVariant_eq] at hr
    cases hr
    unfold DispatcherOnly
    split
    · rw [statusUnpack_eq, recordMsg_eq]
    · rw [recordMsg_eq]
  cases i <;> simp only [instrPart, reduceCtorEq] at hi
  case newClientClearToSend k => exact hv .newClientClearToSend k h
  case channelAssignmentRequest k => exact hv .channelAssignmentRequest k h
  case channelAssignmentResponse k => exact hv .channelAssignmentResponse k h
  case channelAssignmentAcknowledgement k => exact hv .channelAssignmentAcknowledgement k h
  case existingClientRequest k => exact hv .existingClientRequest k h
  case existingClientResponse k => exact hv .existingClientResponse k h
  case clientClearToSend k => exact hv .clientClearToSend k h
  case nothingToSend k => exact hv .nothingToSend k h
  case toggleItem k => exact hv .toggleItem k h
  case statusUpdate k => exact hv .statusUpdate k h
  case setTemperature k => exact hv .setTemperature k h
  case setTime k => exact hv .setTime k h
  case settingsRequest k => exact hv .settingsRequest k h
  case filterCycles k => exact hv .filterCycles k h
  case informationResponse k => exact hv .informationResponse k h
  case preferencesResponse k => exact hv .preferencesResponse k h
  case configurationResponse k => exact hv .configurationResponse k h
  case faultLogResponse k => exact hv .faultLogResponse k h
  case unknownType ty => cases h; rfl

/-- TX_POP writes only tx_idx and its events. -/
theorem exec_txPop {s t : State} (h : exec .txPop s = .next t) :
    PopOnly s t := by
  change execTxPop s = _ at h
  unfold execTxPop at h
  split at h
  · split at h
    · cases h; rfl
    · cases h
  · cases h; rfl

/-- TX_START's four outcomes. -/
theorem execTxStart_cases (ch ty n : Byte) (s : State) :
    execTxStart ch ty n s = .next (raiseError .txBusy s) ∨
      execTxStart ch ty n s = .next (raiseError .encodeOverflow s) ∨
      (txBusy s = false ∧ n.toNat ≤ Config.maxPayload ∧
        execTxStart ch ty n s = .next (loadFrame (encodeFrame ch ty (stagedPayload s n.toNat)) s)) ∨
      (n.toNat ≤ Config.maxPayload ∧ stagedWritten s n.toNat = false ∧
        execTxStart ch ty n s = .fault .unwrittenPayload) := by
  unfold execTxStart
  cases hb : txBusy s with
  | true => exact .inl rfl
  | false =>
    by_cases hn : Config.maxPayload < n.toNat
    · exact .inr (.inl (by simp [hn]))
    · cases hw : stagedWritten s n.toNat with
      | true => exact .inr (.inr (.inl ⟨rfl, Nat.le_of_not_lt hn, by simp [hn]⟩))
      | false => exact .inr (.inr (.inr ⟨Nat.le_of_not_lt hn, rfl, by simp [hn]⟩))

/-- A host command writes only the CRC register, the configuration and the transmitter's elements. -/
theorem exec_command {i : Instr} {s t : State} (hi : isCommand i = true) (h : exec i s = .next t) :
    CommandOnly s t := by
  cases i <;> simp only [isCommand, Bool.false_eq_true] at hi
  case txStart ch ty n =>
    change execTxStart ch ty n s = _ at h
    obtain h' | h' | ⟨-, -, h'⟩ | ⟨-, -, h'⟩ := execTxStart_cases ch ty n s <;> rw [h'] at h <;> cases h <;> rfl
  all_goals (cases h; rfl)

/-- The host command sub-step: a legal or illegal word's event and effect. -/
theorem runCommand_frame {c : CycleInput} {s t : State} (h : runCommand c s = .next t) :
    CommandOnly s t := by
  rw [runCommand_eq] at h
  split at h
  · split at h
    · rename_i i hi
      exact exec_command (decodeCommand_isCommand hi) h
    · cases h; rfl
  · cases h; rfl

/-- A receive operation completes a candidate, or changes nothing but the candidate in progress. -/
theorem exec_receiver_cases {i : Instr} {s t : State} (hi : instrPart i = .receiver) (h : exec i s = .next t) :
    (∃ u, complete u = .next t ∧
      u = { s with rxCnt := u.rxCnt, rxNeed := u.rxNeed, rxBuf := u.rxBuf, rxLastb := u.rxLastb }) ∨
    t = { s with rxState := t.rxState, rxCnt := t.rxCnt, rxNeed := t.rxNeed, rxBuf := t.rxBuf, rxLastb := t.rxLastb } := by
  cases i <;> simp only [instrPart, reduceCtorEq] at hi
  case rxScanHunt l b =>
    by_cases hb : b = Config.delim
    · subst hb
      cases (execRxScanHunt_delim l s).symm.trans h; exact .inr rfl
    · cases (execRxScanHunt_other hb l s).symm.trans h; exact .inr rfl
  case rxScanResync l => cases h; exact .inr rfl
  case rxScanLength l b =>
    by_cases hb : b = 0x00#8
    · subst hb
      exact .inl ⟨_, (execRxScanLength_complete l s).symm.trans h, rfl⟩
    · cases (execRxScanLength_nonzero hb l s).symm.trans h; exact .inr rfl
  case rxScanCollect l b =>
    by_cases h₁ : s.rxCnt < Config.rxBufBytes
    · by_cases h₂ : s.rxNeed = 1#8
      · exact .inl ⟨_, (execRxScanCollect_last h₁ h₂ l b).symm.trans h, rfl⟩
      · cases (execRxScanCollect_more h₁ h₂ l b).symm.trans h; exact .inr rfl
    · cases (execRxScanCollect_outside h₁ l b).symm.trans h
  case rxSpan l b =>
    cases l with
    | true => exact .inl ⟨_, h, rfl⟩
    | false => cases h; exact .inr rfl
  case rxIdle l b => cases h; exact .inr rfl

/-- What the transmit pop and the host command leave of the state the receive sub-step made. -/
theorem subSteps_frame {c : CycleInput} {u v t : State}
    (hv : (if c.txReady then exec .txPop u else .next u) = .next v) (ht : runCommand c v = .next t) :
    t = { u with
      crcReg := t.crcReg, cfgPumpPresent := t.cfgPumpPresent, cfgCapEn := t.cfgCapEn,
      txPl := t.txPl, txPlW := t.txPlW, txFrame := t.txFrame, txLen := t.txLen, txIdx := t.txIdx, txErr := t.txErr,
      events := { t.events with frame := u.events.frame, msg := u.events.msg, status := u.events.status } } := by
  have h₁ := runCommand_frame ht
  have h₂ : PopOnly u v := by
    split at hv
    · exact exec_txPop hv
    · cases hv; rfl
  unfold CommandOnly at h₁
  unfold PopOnly at h₂
  rw [h₁, h₂]

end Sys2Proof.Machine
end

