-- ==== Sys2Proof/Laws/PerInstr.lean ====
section
/-! SUPPORT. Statements about every operation as syntax, one lemma per constructor. -/

namespace Sys2Proof.Laws

/-- Decoding the word of a well-formed operation, in a context that selects it, gives it back. -/
def RoundTrip.Statement (i : Instr) : Prop :=
  ∀ (c : DecodeCtx) (w : PortWord), i.wf = true → i.selected c = true → encode c.typeMap i = some w →
    decode c w = .ok i

theorem RoundTrip.nop : RoundTrip.Statement .nop := by
  rintro c _ - - ⟨⟩; exact decodeCommand_nop

theorem RoundTrip.crcInit : RoundTrip.Statement .crcInit := by
  rintro c _ - - ⟨⟩; exact decodeCommand_crcInit

theorem RoundTrip.crcUpdate (b : Byte) : RoundTrip.Statement (.crcUpdate b) := by
  rintro c _ - - ⟨⟩; exact decodeCommand_crcUpdate b

theorem RoundTrip.txWrite (i b : Byte) : RoundTrip.Statement (.txWrite i b) := by
  rintro c _ - - ⟨⟩; exact decodeCommand_txWrite i b

theorem RoundTrip.txStart (ch t n : Byte) : RoundTrip.Statement (.txStart ch t n) := by
  rintro c _ - - ⟨⟩; exact decodeCommand_txStart ch t n

theorem RoundTrip.cfgWrite (cap : BitVec 7) (pumps : BitVec 6) : RoundTrip.Statement (.cfgWrite cap pumps) := by
  rintro c _ - - ⟨⟩; exact decodeCommand_cfgWrite cap pumps

theorem RoundTrip.illegalOp67 (low : BitVec 29) : RoundTrip.Statement (.illegalOp67 low) := by
  rintro c _ - - ⟨⟩; exact decodeCommand_illegalOp67 low

theorem RoundTrip.illegalOp8F (low : BitVec 31) : RoundTrip.Statement (.illegalOp8F low) := by
  rintro c _ - - ⟨⟩; exact decodeCommand_illegalOp8F low

/-- The receive port's word of a received byte decodes as the byte's row. -/
theorem decode_rxByte (c : DecodeCtx) (l : Bool) (b : Byte) :
    decode c (.rxPort (rxWord true l b)) =
      .ok (match c.rxSource with
        | .scan => decodeScan c.rxState l b
        | .span => .rxSpan l b) :=
  congrArg Except.ok (Sys2Proof.Machine.decodeRx_byte _ _ l b)

theorem RoundTrip.rxScanHunt (l : Bool) (b : Byte) : RoundTrip.Statement (.rxScanHunt l b) := by
  rintro c _ - hs ⟨⟩
  obtain ⟨h₁, h₂⟩ : c.rxSource = .scan ∧ c.rxState = .hunt := by simpa [Instr.selected] using hs
  rw [decode_rxByte, h₁, h₂]; rfl

theorem RoundTrip.rxScanResync (l : Bool) : RoundTrip.Statement (.rxScanResync l) := by
  rintro c _ - hs ⟨⟩
  obtain ⟨h₁, h₂⟩ : c.rxSource = .scan ∧ c.rxState = .gotStart := by simpa [Instr.selected] using hs
  rw [decode_rxByte, h₁, h₂]; rfl

theorem RoundTrip.rxScanLength (l : Bool) (b : Byte) : RoundTrip.Statement (.rxScanLength l b) := by
  rintro c _ hw hs ⟨⟩
  obtain ⟨h₁, h₂⟩ : c.rxSource = .scan ∧ c.rxState = .gotStart := by simpa [Instr.selected] using hs
  have hb : b ≠ Config.delim := by simpa [Instr.wf] using hw
  rw [decode_rxByte, h₁, h₂]; simp [decodeScan, hb]

theorem RoundTrip.rxScanCollect (l : Bool) (b : Byte) : RoundTrip.Statement (.rxScanCollect l b) := by
  rintro c _ - hs ⟨⟩
  obtain ⟨h₁, h₂⟩ : c.rxSource = .scan ∧ c.rxState = .collect := by simpa [Instr.selected] using hs
  rw [decode_rxByte, h₁, h₂]; rfl

theorem RoundTrip.rxSpan (l : Bool) (b : Byte) : RoundTrip.Statement (.rxSpan l b) := by
  rintro c _ - hs ⟨⟩
  have h : c.rxSource = .span := by simpa [Instr.selected] using hs
  rw [decode_rxByte, h]

theorem RoundTrip.rxIdle (l : Bool) (b : Byte) : RoundTrip.Statement (.rxIdle l b) := by
  rintro c _ - - ⟨⟩
  simp only [decode, Sys2Proof.Machine.decodeRx_idle]

theorem RoundTrip.txPop : RoundTrip.Statement .txPop := by
  rintro c _ - - ⟨⟩; rfl

theorem RoundTrip.reset : RoundTrip.Statement .reset := by
  rintro c _ - - ⟨⟩; rfl

/-- The round trip of a variant's dispatch. -/
theorem roundTrip_variant {c : DecodeCtx} {v : Variant} {k : Pins} {w : PortWord}
    (h : encodeVariant c.typeMap v k = some w) : decode c w = .ok (v.instr k) := by
  obtain ⟨t, rfl, ht⟩ := decodeType_encodeVariant h
  rw [decode, ht]

theorem RoundTrip.newClientClearToSend (k : Pins) : RoundTrip.Statement (.newClientClearToSend k) :=
  fun _ _ _ _ h => roundTrip_variant (v := .newClientClearToSend) h

theorem RoundTrip.channelAssignmentRequest (k : Pins) : RoundTrip.Statement (.channelAssignmentRequest k) :=
  fun _ _ _ _ h => roundTrip_variant (v := .channelAssignmentRequest) h

theorem RoundTrip.channelAssignmentResponse (k : Pins) : RoundTrip.Statement (.channelAssignmentResponse k) :=
  fun _ _ _ _ h => roundTrip_variant (v := .channelAssignmentResponse) h

theorem RoundTrip.channelAssignmentAcknowledgement (k : Pins) : RoundTrip.Statement (.channelAssignmentAcknowledgement k) :=
  fun _ _ _ _ h => roundTrip_variant (v := .channelAssignmentAcknowledgement) h

theorem RoundTrip.existingClientRequest (k : Pins) : RoundTrip.Statement (.existingClientRequest k) :=
  fun _ _ _ _ h => roundTrip_variant (v := .existingClientRequest) h

theorem RoundTrip.existingClientResponse (k : Pins) : RoundTrip.Statement (.existingClientResponse k) :=
  fun _ _ _ _ h => roundTrip_variant (v := .existingClientResponse) h

theorem RoundTrip.clientClearToSend (k : Pins) : RoundTrip.Statement (.clientClearToSend k) :=
  fun _ _ _ _ h => roundTrip_variant (v := .clientClearToSend) h

theorem RoundTrip.nothingToSend (k : Pins) : RoundTrip.Statement (.nothingToSend k) :=
  fun _ _ _ _ h => roundTrip_variant (v := .nothingToSend) h

theorem RoundTrip.toggleItem (k : Pins) : RoundTrip.Statement (.toggleItem k) :=
  fun _ _ _ _ h => roundTrip_variant (v := .toggleItem) h

theorem RoundTrip.statusUpdate (k : Pins) : RoundTrip.Statement (.statusUpdate k) :=
  fun _ _ _ _ h => roundTrip_variant (v := .statusUpdate) h

theorem RoundTrip.setTemperature (k : Pins) : RoundTrip.Statement (.setTemperature k) :=
  fun _ _ _ _ h => roundTrip_variant (v := .setTemperature) h

theorem RoundTrip.setTime (k : Pins) : RoundTrip.Statement (.setTime k) :=
  fun _ _ _ _ h => roundTrip_variant (v := .setTime) h

theorem RoundTrip.settingsRequest (k : Pins) : RoundTrip.Statement (.settingsRequest k) :=
  fun _ _ _ _ h => roundTrip_variant (v := .settingsRequest) h

theorem RoundTrip.filterCycles (k : Pins) : RoundTrip.Statement (.filterCycles k) :=
  fun _ _ _ _ h => roundTrip_variant (v := .filterCycles) h

theorem RoundTrip.informationResponse (k : Pins) : RoundTrip.Statement (.informationResponse k) :=
  fun _ _ _ _ h => roundTrip_variant (v := .informationResponse) h

theorem RoundTrip.preferencesResponse (k : Pins) : RoundTrip.Statement (.preferencesResponse k) :=
  fun _ _ _ _ h => roundTrip_variant (v := .preferencesResponse) h

theorem RoundTrip.configurationResponse (k : Pins) : RoundTrip.Statement (.configurationResponse k) :=
  fun _ _ _ _ h => roundTrip_variant (v := .configurationResponse) h

theorem RoundTrip.faultLogResponse (k : Pins) : RoundTrip.Statement (.faultLogResponse k) :=
  fun _ _ _ _ h => roundTrip_variant (v := .faultLogResponse) h

theorem RoundTrip.unknownType (t : Byte) : RoundTrip.Statement (.unknownType t) := by
  rintro c _ - hs ⟨⟩
  have h : c.typeMap.entry t = none := by simpa [Instr.selected] using hs
  simp [decode, decodeType, h]

end Sys2Proof.Laws
end

