-- ==== Sys2Proof/Tests/Slice0.lean ====
section
/-! SUPPORT. The model's own tests: ill-formed operations are refused; words written out bit by bit from the encodings
of spec/ decode to their operations; single steps give the results of spec/95_test_vectors.md (named in each comment); and
for each obligation with hypotheses, states and operands that meet them. -/

namespace Sys2Proof.Tests

set_option Elab.async false

open Sys2Proof Sys2Proof.Machine

/-! ### Helpers -/

/-- The state a step answers. -/
def after (r : Result) : Option State :=
  match r with
  | .next s => some s
  | .fault _ => none
  | .refused _ => none

/-- The reset state with one cycle's inputs waiting. -/
def withInput (c : CycleInput) : State := { State.reset with inputs := [c] }

/-- A state whose last good frame is on channel `ch` with type code `t` and payload `pl`. -/
def received (ch t : Byte) (pl : List Byte) : State :=
  { State.reset with frmAny := true, frmCh := ch, frmType := t, frmPlen := pl.length,
                     frmPayload := Memory.writeSlice [] 0 pl }

/-- msg_err, msg_variant and msg_sub after a dispatch. -/
def msgResult (r : Result) : Option (Nat × Nat × Nat) :=
  (after r).map (fun s => (s.msgErr.code.toNat, (variantNum s.msgVariant).toNat, (subVariantNum s.msgSub).toNat))

/-- A candidate in progress in SCAN mode: the bytes `pre` received, `need` more to come. -/
def collecting (pre : List Byte) (need lastb : Byte) : State :=
  { State.reset with rxState := .collect, rxCnt := pre.length, rxNeed := need, rxLastb := lastb,
                     rxBuf := Memory.writeSlice [] 0 pre }

/-- The good frame `g` of spec/95_test_vectors.md without its last byte. -/
def gHead : List Byte := [0x7E#8, 0x05#8, 0x10#8, 0xBF#8, 0x06#8, 0x5C#8]

/-- A status payload of zeros but for byte `i`. -/
def statusBytes (i : Nat) (b : Byte) : List Byte := (List.replicate 31 0x00#8).set i b

/-- The parameters in SPAN mode. -/
def spanParams : Params := { defaultParams with rxSource := .span }

/-! ### Ill-formed operations -/

theorem test_wf_length_delimiter : (Instr.rxScanLength false 0x7E#8).wf = false := by decide
theorem test_wf_length_other : (Instr.rxScanLength false 0x7D#8).wf = true := by decide
theorem test_wf_status_length : (Instr.statusUpdate ⟨some 30, some 0xFF#8⟩).wf = false := by decide
theorem test_wf_status_channel : (Instr.statusUpdate ⟨some 31, none⟩).wf = false := by decide
theorem test_wf_client_response : (Instr.existingClientResponse ⟨none, none⟩).wf = false := by decide
theorem test_wf_settings : (Instr.settingsRequest ⟨some 2, none⟩).wf = false := by decide
theorem test_wf_new_client : (Instr.newClientClearToSend ⟨none, none⟩).wf = false := by decide
theorem test_wf_assign_request : (Instr.channelAssignmentRequest ⟨none, some 0xFF#8⟩).wf = false := by decide
theorem test_wf_assign_response : (Instr.channelAssignmentResponse ⟨none, none⟩).wf = false := by decide

/-! ### Words written out from the encodings

The command words are the encoding column of 30_encoding.md R87, op first; the receive-port words are R85's
rx_valid, rx_last, rx_data; the type codes are 43_dispatch.md R201's. -/

theorem test_decode_nop : decodeCommand 0b00000000000000000000000000000000#32 = .ok .nop := by decide
theorem test_decode_crcInit : decodeCommand 0b00010000000000000000000000000000#32 = .ok .crcInit := by decide
theorem test_decode_crcUpdate : decodeCommand 0b00100000000000000000000010100101#32 = .ok (.crcUpdate 0xA5#8) := by decide
theorem test_decode_txWrite : decodeCommand 0b00110000000000000000000111110001#32 = .ok (.txWrite 0x01#8 0xF1#8) := by decide
theorem test_decode_txStart : decodeCommand 0b01000000111111100000000100000011#32 = .ok (.txStart 0xFE#8 0x01#8 0x03#8) := by decide
theorem test_decode_cfgWrite : decodeCommand 0b01010000000000000100000100100110#32 = .ok (.cfgWrite 0b1000001#7 0b100110#6) := by decide
theorem test_decode_illegalOp67_6 : decodeCommand 0b01100000000000000000000000000001#32 = .ok (.illegalOp67 0x00000001#29) := by decide
theorem test_decode_illegalOp67_7 : decodeCommand 0b01110000000000000000000000000000#32 = .ok (.illegalOp67 0x10000000#29) := by decide
theorem test_decode_illegalOp8F_8 : decodeCommand 0b10000000000000000000000000000001#32 = .ok (.illegalOp8F 0x00000001#31) := by decide
theorem test_decode_illegalOp8F_F : decodeCommand 0b11110000000000000000000000000000#32 = .ok (.illegalOp8F 0x70000000#31) := by decide

theorem test_decode_reserved : decodeCommand 0b01010000000000001000000000000000#32 = .error .reservedBit := by decide

theorem test_decode_rxScanHunt : decode ⟨.scan, .hunt, []⟩ (.rxPort 0b1000010001#10) = .ok (.rxScanHunt false 0x11#8) := by decide
theorem test_decode_rxScanResync : decode ⟨.scan, .gotStart, []⟩ (.rxPort 0b1001111110#10) = .ok (.rxScanResync false) := by decide
theorem test_decode_rxScanLength : decode ⟨.scan, .gotStart, []⟩ (.rxPort 0b1100000101#10) = .ok (.rxScanLength true 0x05#8) := by decide
theorem test_decode_rxScanCollect : decode ⟨.scan, .collect, []⟩ (.rxPort 0b1001111110#10) = .ok (.rxScanCollect false 0x7E#8) := by decide
theorem test_decode_rxSpan : decode ⟨.span, .hunt, []⟩ (.rxPort 0b1100000011#10) = .ok (.rxSpan true 0x03#8) := by decide
theorem test_decode_rxIdle : decode ⟨.scan, .gotStart, []⟩ (.rxPort 0b0101111110#10) = .ok (.rxIdle true 0x7E#8) := by decide
theorem test_decode_txPop : decode ⟨.scan, .hunt, []⟩ (.txPort 0b1#1) = .ok .txPop := by decide
theorem test_decode_reset : decode ⟨.scan, .hunt, []⟩ (.rstPort 0b1#1) = .ok .reset := by decide
theorem test_decode_noTransaction : decode ⟨.scan, .hunt, []⟩ (.txPort 0b0#1) = .error .noTransaction := by decide

theorem test_decode_newClientClearToSend : decodeType defaultTypeMap 0b00000000#8 = .newClientClearToSend ⟨none, some 0xFE#8⟩ := by decide
theorem test_decode_channelAssignmentRequest : decodeType defaultTypeMap 0b00000001#8 = .channelAssignmentRequest ⟨none, some 0xFE#8⟩ := by decide
theorem test_decode_channelAssignmentResponse : decodeType defaultTypeMap 0b00000010#8 = .channelAssignmentResponse ⟨none, some 0xFE#8⟩ := by decide
theorem test_decode_channelAssignmentAcknowledgement : decodeType defaultTypeMap 0b00000011#8 = .channelAssignmentAcknowledgement ⟨none, none⟩ := by decide
theorem test_decode_existingClientRequest : decodeType defaultTypeMap 0b00000100#8 = .existingClientRequest ⟨none, none⟩ := by decide
theorem test_decode_existingClientResponse : decodeType defaultTypeMap 0b00000101#8 = .existingClientResponse ⟨some 3, none⟩ := by decide
theorem test_decode_clientClearToSend : decodeType defaultTypeMap 0b00000110#8 = .clientClearToSend ⟨none, none⟩ := by decide
theorem test_decode_nothingToSend : decodeType defaultTypeMap 0b00000111#8 = .nothingToSend ⟨none, none⟩ := by decide
theorem test_decode_toggleItem : decodeType defaultTypeMap 0b00010001#8 = .toggleItem ⟨none, none⟩ := by decide
theorem test_decode_statusUpdate : decodeType defaultTypeMap 0b00010011#8 = .statusUpdate ⟨some 31, some 0xFF#8⟩ := by decide
theorem test_decode_setTemperature : decodeType defaultTypeMap 0b00100000#8 = .setTemperature ⟨none, none⟩ := by decide
theorem test_decode_setTime : decodeType defaultTypeMap 0b00100001#8 = .setTime ⟨none, none⟩ := by decide
theorem test_decode_settingsRequest : decodeType defaultTypeMap 0b00100010#8 = .settingsRequest ⟨some 3, none⟩ := by decide
theorem test_decode_filterCycles : decodeType defaultTypeMap 0b00100011#8 = .filterCycles ⟨none, none⟩ := by decide
theorem test_decode_informationResponse : decodeType defaultTypeMap 0b00100100#8 = .informationResponse ⟨none, none⟩ := by decide
theorem test_decode_preferencesResponse : decodeType defaultTypeMap 0b00100110#8 = .preferencesResponse ⟨none, none⟩ := by decide
theorem test_decode_configurationResponse : decodeType defaultTypeMap 0b00101110#8 = .configurationResponse ⟨none, none⟩ := by decide
theorem test_decode_faultLogResponse : decodeType defaultTypeMap 0b00101000#8 = .faultLogResponse ⟨none, none⟩ := by decide
theorem test_decode_unknownType : decodeType defaultTypeMap 0b10011001#8 = .unknownType 0x99#8 := by decide

/-! ### The host's probes -/

theorem test_table_command : decodeTableWord 32 0x40101102 = some (.txStart 0x10#8 0x11#8 0x02#8) := by decide
theorem test_table_type : decodeTableWord 8 0x2E = some (.configurationResponse ⟨none, none⟩) := by decide
theorem test_table_receive : decodeTableWord 16 0b1001111110 = some (.rxScanHunt false 0x7E#8) := by decide
theorem test_fetch_command :
    (after (step (State.reset.withFetchWord 32 0x20000005))).map (·.crcReg) = some 0x15#8 := by decide +kernel
theorem test_fetch_receive :
    (after (step (State.reset.withFetchWord 16 0b1001111110))).map (·.rxState) = some .gotStart := by decide +kernel
theorem test_fetch_status : msgResult (step (State.reset.withFetchWord 8 0x13)) = some (0, 9, 0) := by decide +kernel
theorem test_fetch_arbitration : msgResult (step (State.reset.withFetchWord 8 0x01)) = some (0, 1, 0) := by decide +kernel
theorem test_fetch_unknown : msgResult (step (State.reset.withFetchWord 8 0x99)) = some (4, 0, 0) := by decide +kernel

/-! ### Commands -/

/-- V-CRC-10, V-CRC-12, V-CRC-01, V-CRC-04, V-CRC-11. -/
theorem test_crc8_header : crc8 [0x05#8, 0x10#8, 0xBF#8, 0x06#8] = 0x5C#8 := by decide +kernel
theorem test_crc8_information : crc8 [0x1A#8, 0x0A#8, 0xBF#8, 0x24#8] = 0x22#8 := by decide +kernel
theorem test_crc8_empty : crc8 [] = 0x00#8 := by decide +kernel
theorem test_crc8_ff : crc8 [0xFF#8] = 0xFF#8 := by decide +kernel
theorem test_crc8_residue : crc8 [0x05#8, 0x10#8, 0xBF#8, 0x06#8, 0x5C#8] = 0x0C#8 := by decide +kernel
/-- V-CRC-20, V-CRC-24. -/
theorem test_crcUpdate : (after (exec (.crcUpdate 0x05#8) State.reset)).map (·.crcReg) = some 0x15#8 := by decide +kernel
theorem test_crcUpdate_top : (after (exec (.crcUpdate 0x82#8) State.reset)).map (·.crcReg) = some 0x89#8 := by decide +kernel
/-- V-CRC-33. -/
theorem test_crcInit : (after (exec .crcInit { State.reset with crcReg := 0x0E#8 })).map (fun s => (s.crcReg, crcOut s)) =
    some (0x02#8, 0x00#8) := by decide +kernel
/-- V-CMD-01. -/
theorem test_nop : after (step (withInput (Script.word 0x00000000#32))) = some State.reset := by decide +kernel
/-- V-CMD-02: a reserved bit of NOP. -/
theorem test_nop_reserved : (after (step (withInput (Script.word 0x00000001#32)))).map (·.events.cmdErr) = some true := by
  decide +kernel
/-- V-CMD-04. -/
theorem test_crcInit_reserved :
    (after (step { withInput (Script.word 0x10000100#32) with crcReg := 0x77#8 })).map (fun s => (s.crcReg, s.events.cmdErr)) =
      some (0x77#8, true) := by decide +kernel
/-- V-CMD-10. -/
theorem test_cfgWrite : (after (step (withInput (Script.word 0x50007F3F#32)))).map
    (fun s => (s.cfgCapEn, s.cfgPumpPresent, s.events.cmdErr)) = some (0x7F#7, 0x3F#6, false) := by decide +kernel
/-- V-CMD-09: bit 6. -/
theorem test_cfgWrite_reserved : (after (step (withInput (Script.word 0x50000040#32)))).map
    (fun s => (s.cfgPumpPresent, s.events.cmdErr)) = some (0x00#6, true) := by decide +kernel
/-- V-CMD-11 and V-CMD-12. -/
theorem test_illegalOp67 : (after (step (withInput (Script.word 0x60000000#32)))).map (·.events.cmdErr) = some true := by
  decide +kernel
theorem test_illegalOp8F : (after (step (withInput (Script.word 0xF0000000#32)))).map (·.events.cmdErr) = some true := by
  decide +kernel

/-! ### The transmitter -/

/-- V-TX-02's first word. -/
theorem test_txWrite : (after (step (withInput (Script.word 0x30000004#32)))).map
    (fun s => (s.txPl, s.txPlW)) = some ([(0, 0x04#8)], 1#256) := by decide +kernel
/-- The last index; a zero byte is written too (42_frame_tx.md R182). -/
theorem test_txWrite_last : (after (exec (.txWrite 0xFF#8 0x00#8) { State.reset with txPl := [(255, 0x07#8)] })).map
    (fun s => (s.txPl.read 255, s.txPlW.getLsbD 255, s.txPlW.getLsbD 254)) = some (0x00#8, true, false) := by decide +kernel
/-- V-TX-02: the frame of `TX_START 10, 11, 2` after its two staging writes. -/
theorem test_txStart : (after (exec (.txStart 0x10#8 0x11#8 0x02#8)
    { State.reset with txPl := [(0, 0x04#8)], txPlW := 3#256 })).map (fun s => (s.txFrame.readSlice 0 9, s.txLen, s.txIdx)) =
      some ([0x7E#8, 0x07#8, 0x10#8, 0xBF#8, 0x11#8, 0x04#8, 0x00#8, 0x6A#8, 0x7E#8], 9, 0) := by decide +kernel
/-- V-TX-12: the model fault. -/
theorem test_txStart_unwritten : exec (.txStart 0x10#8 0x07#8 0x01#8) State.reset = .fault .unwrittenPayload := by rfl
/-- V-TX-06 and V-TX-08: what refuses a start. -/
theorem test_txStart_overflow : (after (exec (.txStart 0x10#8 0x07#8 0xFB#8) State.reset)).map
    (fun s => (s.txErr, s.txLen, s.events.txErr)) = some (.encodeOverflow, 0, true) := by decide +kernel
theorem test_txStart_busy : (after (exec (.txStart 0x10#8 0x07#8 0xFB#8) { State.reset with txLen := 7, txIdx := 3 })).map
    (fun s => (s.txErr, s.txLen, s.txIdx)) = some (.txBusy, 7, 3) := by decide +kernel
/-- V-TX-09: the pop of the last byte. -/
theorem test_txPop_last : (after (exec .txPop { State.reset with txFrame := [(6, 0x7E#8)], txLen := 7, txIdx := 6 })).map
    (fun s => (s.events.txByte, s.events.txDone, s.txIdx)) = some (some 0x7E#8, true, 7) := by decide +kernel
/-- V-TX-11. -/
theorem test_txPop_idle : after (exec .txPop State.reset) = some State.reset := by decide +kernel

/-! ### The receiver -/

/-- V-RX-01's first byte, and the delimiter that starts a candidate. -/
theorem test_rxScanHunt_noise : after (exec (.rxScanHunt false 0x00#8) State.reset) = some State.reset := by decide +kernel
theorem test_rxScanHunt_delimiter : (after (exec (.rxScanHunt false 0x7E#8) State.reset)).map
    (fun s => (s.rxState, s.rxCnt, s.rxBuf, s.rxLastb)) = some (.gotStart, 1, [(0, 0x7E#8)], 0x00#8) := by decide +kernel
/-- V-RX-02: the doubled delimiter. -/
theorem test_rxScanResync : (after (exec (.rxScanResync false) { State.reset with rxState := .gotStart, rxCnt := 1 })).map
    (fun s => (s.rxState, s.rxCnt)) = some (.gotStart, 1) := by decide +kernel
/-- V-RX-18's second byte. -/
theorem test_rxScanLength : (after (exec (.rxScanLength false 0x05#8) { State.reset with rxState := .gotStart, rxCnt := 1 })).map
    (fun s => (s.rxState, s.rxCnt, s.rxNeed, s.rxLastb)) = some (.collect, 2, 0x05#8, 0x05#8) := by decide +kernel
/-- V-RX-03: `7E 00`. -/
theorem test_rxScanLength_zero :
    (after (exec (.rxScanLength false 0x00#8) { State.reset with rxState := .gotStart, rxCnt := 1 })).map
      (fun s => (s.frmErr, s.frmCnt, s.rxState, s.events.msg)) = some (.framingError, 2, .hunt, false) := by decide +kernel
/-- V-RX-05's last byte: the checksum error, and `g`'s last byte. -/
theorem test_rxScanCollect_checksum :
    (after (exec (.rxScanCollect false 0x7E#8) (collecting [0x7E#8, 0x05#8, 0x10#8, 0xBF#8, 0x06#8, 0x5D#8] 1#8 0x5D#8))).map
      (fun s => (s.frmErr, s.frmCrcRx, s.frmCrcCalc, s.msgAny)) = some (.checksumError, 0x5D#8, 0x5C#8, false) := by decide +kernel
theorem test_rxScanCollect_good : (after (exec (.rxScanCollect false 0x7E#8) (collecting gHead 1#8 0x5C#8))).map
    (fun s => (s.frmErr, s.frmCh, s.frmCnt, s.msgVariant)) = some (.none, 0x10#8, 7, .clientClearToSend) := by decide +kernel
/-- V-SP-04's last byte: the declared length is one too large. -/
theorem test_rxSpan_length : (after (exec (.rxSpan true 0x7E#8) { State.reset with
    params := spanParams, rxCnt := 6,
    rxBuf := Memory.writeSlice [] 0 [0x7E#8, 0x06#8, 0x10#8, 0xBF#8, 0x06#8, 0x5C#8] })).map (fun s => (s.frmErr, s.rxCnt)) =
      some (.lengthError, 0) := by decide +kernel
/-- V-SP-14: the count saturates at 258. -/
theorem test_rxSpan_saturates : (after (exec (.rxSpan false 0x00#8) { State.reset with params := spanParams, rxCnt := 258 })).map
    (fun s => (s.rxCnt, s.rxBuf)) = some (258, []) := by decide +kernel
/-- A cycle with rx_valid = 0 ignores the other wires (30_encoding.md R85). -/
theorem test_rxIdle : after (step (withInput { rxLast := true, rxData := 0x7E#8 })) = some State.reset := by decide +kernel
/-- V-RST-03: reset replaces the whole cycle. The count of resets is the model's own (log entry 6). -/
theorem test_reset : after (step { withInput (Script.both Script.reset (Script.both (Script.rx 0x7E#8)
    (Script.both Script.pop (Script.word 0x20000005#32)))) with crcReg := 0x77#8, rxCnt := 3, frmSeq := 9#8 }) =
      some { State.reset with resets := 1 } := by decide +kernel

/-! ### The dispatcher (V-DS) -/

/-- V-DS-01. -/
theorem test_newClientClearToSend_01 : msgResult (exec (.newClientClearToSend ⟨none, some 0xFE#8⟩) (received 0xFE#8 0x00#8 [])) =
    some (0, 0, 0) := by decide +kernel
/-- V-DS-02. -/
theorem test_newClientClearToSend_02 : msgResult (exec (.newClientClearToSend ⟨none, some 0xFE#8⟩) (received 0x10#8 0x00#8 [])) =
    some (6, 0, 0) := by decide +kernel
/-- V-DS-03. -/
theorem test_channelAssignmentRequest_03 : msgResult (exec (.channelAssignmentRequest ⟨none, some 0xFE#8⟩) (received 0xFE#8 0x01#8 [0x02#8, 0xF1#8, 0x73#8])) =
    some (0, 1, 0) := by decide +kernel
/-- V-DS-04. -/
theorem test_channelAssignmentRequest_04 : msgResult (exec (.channelAssignmentRequest ⟨none, some 0xFE#8⟩) (received 0x05#8 0x01#8 [])) =
    some (6, 1, 0) := by decide +kernel
/-- V-DS-05. -/
theorem test_channelAssignmentResponse_05 : msgResult (exec (.channelAssignmentResponse ⟨none, some 0xFE#8⟩) (received 0xFE#8 0x02#8 [0x05#8, 0xF1#8, 0x73#8])) =
    some (0, 2, 0) := by decide +kernel
/-- V-DS-06. -/
theorem test_channelAssignmentAcknowledgement_06 : msgResult (exec (.channelAssignmentAcknowledgement ⟨none, none⟩) (received 0x05#8 0x03#8 [])) =
    some (0, 3, 0) := by decide +kernel
/-- V-DS-07. -/
theorem test_existingClientRequest_07 : msgResult (exec (.existingClientRequest ⟨none, none⟩) (received 0x05#8 0x04#8 [])) =
    some (0, 4, 0) := by decide +kernel
/-- V-DS-08. -/
theorem test_existingClientResponse_08 : msgResult (exec (.existingClientResponse ⟨some 3, none⟩) (received 0x05#8 0x05#8 [0x04#8, 0x08#8, 0x00#8])) =
    some (0, 5, 0) := by decide +kernel
/-- V-DS-09. -/
theorem test_existingClientResponse_09 : msgResult (exec (.existingClientResponse ⟨some 3, none⟩) (received 0x05#8 0x05#8 [0x04#8, 0x08#8])) =
    some (5, 5, 0) := by decide +kernel
/-- V-DS-11. -/
theorem test_clientClearToSend_11 : msgResult (exec (.clientClearToSend ⟨none, none⟩) (received 0xFF#8 0x06#8 [])) =
    some (0, 6, 0) := by decide +kernel
/-- V-DS-12. -/
theorem test_nothingToSend_12 : msgResult (exec (.nothingToSend ⟨none, none⟩) (received 0x05#8 0x07#8 [])) =
    some (0, 7, 0) := by decide +kernel
/-- V-DS-13. -/
theorem test_toggleItem_13 : msgResult (exec (.toggleItem ⟨none, none⟩) (received 0x05#8 0x11#8 [0x04#8, 0x00#8])) =
    some (0, 8, 0) := by decide +kernel
/-- V-DS-19. -/
theorem test_setTemperature_19 : msgResult (exec (.setTemperature ⟨none, none⟩) (received 0x05#8 0x20#8 [0x64#8])) =
    some (0, 10, 0) := by decide +kernel
/-- V-DS-20. -/
theorem test_setTime_20 : msgResult (exec (.setTime ⟨none, none⟩) (received 0x05#8 0x21#8 [0x0D#8, 0x1E#8])) =
    some (0, 11, 0) := by decide +kernel
/-- V-DS-24. -/
theorem test_settingsRequest_24 : msgResult (exec (.settingsRequest ⟨some 3, none⟩) (received 0x05#8 0x22#8 [0x20#8, 0xFF#8, 0x00#8])) =
    some (0, 12, 4) := by decide +kernel
/-- V-DS-26. -/
theorem test_settingsRequest_26 : msgResult (exec (.settingsRequest ⟨some 3, none⟩) (received 0x05#8 0x22#8 [0x07#8, 0x07#8, 0x07#8])) =
    some (0, 12, 0) := by decide +kernel
/-- V-DS-28. -/
theorem test_filterCycles_28 : msgResult (exec (.filterCycles ⟨none, none⟩) (received 0x0A#8 0x23#8 (List.replicate 8 0x00#8))) =
    some (0, 13, 0) := by decide +kernel
/-- V-DS-29. -/
theorem test_informationResponse_29 : msgResult (exec (.informationResponse ⟨none, none⟩) (received 0x0A#8 0x24#8 (List.replicate 21 0x00#8))) =
    some (0, 14, 0) := by decide +kernel
/-- V-DS-30. -/
theorem test_preferencesResponse_30 : msgResult (exec (.preferencesResponse ⟨none, none⟩) (received 0x0A#8 0x26#8 (List.replicate 18 0x00#8))) =
    some (0, 15, 0) := by decide +kernel
/-- V-DS-31. -/
theorem test_configurationResponse_31 : msgResult (exec (.configurationResponse ⟨none, none⟩) (received 0x0A#8 0x2E#8 (List.replicate 6 0x00#8))) =
    some (0, 16, 0) := by decide +kernel
/-- V-DS-32. -/
theorem test_faultLogResponse_32 : msgResult (exec (.faultLogResponse ⟨none, none⟩) (received 0x0A#8 0x28#8 (List.replicate 10 0x00#8))) =
    some (0, 17, 0) := by decide +kernel
/-- V-DS-33: msg_variant and msg_sub stay. -/
theorem test_unknownType : msgResult (exec (.unknownType 0x99#8)
    { received 0x05#8 0x99#8 [] with msgVariant := .setTime, msgSub := .faultLog }) = some (4, 11, 4) := by decide +kernel
/-- V-DS-17: wrong length and channel; the length is checked first, and there is no snapshot. -/
theorem test_statusUpdate_mismatch : (after (exec (.statusUpdate ⟨some 31, some 0xFF#8⟩)
    (received 0x05#8 0x13#8 (List.replicate 30 0x00#8)))).map (fun s => (s.msgErr, s.stValid, s.events.status)) =
      some (.invalidLength, false, false) := by decide +kernel
/-- V-ST-03: a changed payload byte 11. -/
theorem test_statusUpdate_changed : (after (exec (.statusUpdate ⟨some 31, some 0xFF#8⟩)
    { received 0xFF#8 0x13#8 (statusBytes 11 0x01#8) with stValid := true, msgAny := true, cfgPumpPresent := 1#6 })).map
      (fun s => (s.stChanged, stPump s 1, s.events.status)) = some (true, 1#2, true) := by decide +kernel

/-! ### The status outputs (44_status_unpack.md R257, R251) -/

/-- The snapshot of R257's frame. -/
def r257 : Memory := Memory.writeSlice [] 0
  [0x00#8, 0x01#8, 0x4B#8, 0x0D#8, 0x1E#8, 0x02#8, 0x00#8, 0x00#8, 0x00#8, 0x07#8, 0x18#8, 0xE4#8, 0x09#8,
   0x00#8, 0x00#8, 0x00#8, 0x00#8, 0x00#8, 0x00#8, 0x00#8, 0x4C#8]

/-- P_CAP_FIELD is open; these positions only meet its constraints (44_status_unpack.md R256). -/
def someCapMap : CapMap :=
  #v[⟨13, 0, 2⟩, ⟨13, 2, 2⟩, ⟨13, 4, 4⟩, ⟨14, 0, 4⟩, ⟨14, 4, 4⟩, ⟨18, 0, 1⟩, ⟨18, 1, 7⟩]

theorem test_outputs_r257 :
    (statusOutputs someCapMap { State.reset with stSnap := r257, stValid := true, cfgPumpPresent := 0x3F#6 }).map
      (fun o => (o.priming, o.tempRaw, o.hour, o.minute, o.heatMode, o.tempScale, o.clock24, o.filterMode)) =
      some (1#1, 75#8, 13#8, 30#8, 2#2, 1#1, 1#1, 1#2) := by decide +kernel
theorem test_outputs_r257_rest :
    (statusOutputs someCapMap { State.reset with stSnap := r257, stValid := true, cfgPumpPresent := 0x3F#6 }).map
      (fun o => (o.tempRange, o.heating, o.heatingActive, o.pump.toList, o.setTempRaw)) =
      some (1#1, 1#2, true, [0#2, 1#2, 2#2, 3#2, 1#2, 2#2], 76#8) := by decide +kernel
theorem test_outputs_absent_pumps :
    (statusOutputs someCapMap { State.reset with stSnap := r257, stValid := true, cfgPumpPresent := 0x15#6 }).map
      (·.pump.toList) = some [0#2, 0#2, 2#2, 0#2, 1#2, 0#2] := by decide +kernel
theorem test_outputs_none : statusOutputs someCapMap State.reset = none := by rfl

/-! ### Witnesses: the hypotheses of the obligations are met

One theorem for each obligation with hypotheses, clause by clause, at the ends of the ranges. -/

/-- DecodingAnEncodedOperationGivesItBack. -/
theorem test_hyp_roundtrip_command : (Instr.txStart 0xFF#8 0x13#8 0x1F#8).wf = true ∧
    (Instr.txStart 0xFF#8 0x13#8 0x1F#8).selected ⟨.scan, .hunt, []⟩ = true ∧
    encode [] (.txStart 0xFF#8 0x13#8 0x1F#8) = some (.cmd32 0x40FF131F#32) := by decide
theorem test_hyp_roundtrip_receive : (Instr.rxScanLength true 0xFF#8).wf = true ∧
    (Instr.rxScanLength true 0xFF#8).selected ⟨.scan, .gotStart, []⟩ = true ∧
    encode [] (.rxScanLength true 0xFF#8) = some (.rxPort 0x3FF#10) := by decide
theorem test_hyp_roundtrip_variant : defaultTypeMap.entry 0x13#8 = some ⟨.statusUpdate, some 31, some 0xFF#8⟩ ∧
    encode defaultTypeMap (.statusUpdate ⟨some 31, some 0xFF#8⟩) = some (.msgType8 0x13#8) := by decide +kernel
theorem test_hyp_roundtrip_other : ∀ v k, Instr.txPop ≠ Variant.instr v k := by
  intro v k; cases v <;> simp [Variant.instr]
/-- EncodingADecodedWordGivesItBack. -/
theorem test_hyp_decoded : decode ⟨.scan, .collect, defaultTypeMap⟩ (.rxPort 0x27E#10) = .ok (.rxScanCollect false 0x7E#8) ∧
    decode ⟨.scan, .collect, defaultTypeMap⟩ (.msgType8 0x28#8) = .ok (.faultLogResponse ⟨none, none⟩) ∧
    ∀ t, PortWord.rxPort 0x27E#10 ≠ .msgType8 t := by
  refine ⟨by decide, by decide, fun t h => nomatch h⟩
/-- CommandWordsAreLegalExactlyAsTheRowsSay: both sides of each boundary. -/
theorem test_hyp_legal_words : legalCommand 0x50007F3F#32 ∧ ¬ legalCommand 0x5FFFFFFF#32 ∧ ¬ legalCommand 0x60000000#32 ∧
    ¬ legalCommand 0x7FFFFFFF#32 ∧ ¬ legalCommand 0x80000000#32 := by
  unfold legalCommand; decide
/-- StepRunsTheDecodedOperation and SubStepsOfACycleRunInTheFixedOrder. -/
theorem test_hyp_step_command : decodeCommand 0x3000FF07#32 = .ok (.txWrite 0xFF#8 0x07#8) ∧
    (withInput (Script.word 0x3000FF07#32)).inputs = { cmdValid := true, cmd := 0x3000FF07#32 } :: [] := by decide
theorem test_hyp_step_ports : (withInput (Script.rxLast 0x7E#8)).inputs = { rxValid := true, rxLast := true, rxData := 0x7E#8 } :: [] ∧
    (withInput Script.pop).inputs = { txReady := true } :: [] ∧
    (withInput Script.reset).inputs = Script.reset :: [] ∧ Script.reset.rst = true ∧ Script.pop.rst = false ∧
    State.reset.inputs = [] ∧
    (withInput { rxData := 1#8, cmd := 2#32 }).inputs = { rxLast := false, rxData := 1#8, cmd := 2#32 } :: [] := by decide
/-- NopChangesNothing: the smallest and the largest word of op 0 with a reserved bit. -/
theorem test_hyp_nop : (0x00000001#32).toNat < 0x10000000 ∧ (0x00000001#32 : CmdWord) ≠ 0#32 ∧
    (0x0FFFFFFF#32).toNat < 0x10000000 ∧ (0x0FFFFFFF#32 : CmdWord) ≠ 0#32 := by decide
/-- CfgWriteLoadsBothFields. -/
theorem test_hyp_cfgWrite : 0x50000000 ≤ (0x50007F3F#32).toNat ∧ (0x50007F3F#32).toNat < 0x60000000 ∧
    (0x50007F3F#32 : CmdWord) &&& 0x0FFF80C0#32 = 0#32 ∧ (0x5FFFFFFF#32).toNat < 0x60000000 ∧
    (0x5FFFFFFF#32 : CmdWord) &&& 0x0FFF80C0#32 ≠ 0#32 := by decide
theorem test_hyp_cfgWrite_next : (after (exec (.cfgWrite 0x7F#7 0x21#6) State.reset)).map (fun t => (stPump t 1, stPump t 6)) =
    some (0#2, 0#2) := by decide +kernel
/-- IllegalCommandsOnlyRaiseTheirEvent. -/
theorem test_hyp_illegal : ¬ legalCommand 0x20000100#32 ∧ ¬ legalCommand 0xFFFFFFFF#32 := by
  unfold legalCommand; decide
/-- CfgWriteLoadsBothFields: a capability bit of each value, at the ends of the field. -/
theorem test_hyp_cfgWrite_caps : (0x40#7).getLsbD 0 = false ∧ (0x40#7).getLsbD 6 = true := by decide
/-- CrcInitPresetsTheRegister: the smallest and the largest illegal word of its op. -/
theorem test_hyp_crcInit : State.reset.crcReg = 0x02#8 ∧
    0x10000000 ≤ (0x10000001#32).toNat ∧ (0x10000001#32 : CmdWord) ≠ 0x10000000#32 ∧
    (0x1FFFFFFF#32).toNat < 0x20000000 ∧ (0x1FFFFFFF#32 : CmdWord) ≠ 0x10000000#32 := by decide
/-- CrcUpdateStepsTheRegister, TxWriteStoresOneStagedByte, TxStartLoadsTheFrameOrIsTurnedAway: a word of each op with
every operand bit 1, and one with the lowest reserved bit 1. -/
theorem test_hyp_opWords :
    0x20000000 ≤ (0x200000FF#32).toNat ∧ (0x200000FF#32).toNat < 0x30000000 ∧ (0x200000FF#32 : CmdWord) &&& 0x0FFFFF00#32 = 0#32 ∧
    (0x20000100#32 : CmdWord) &&& 0x0FFFFF00#32 ≠ 0#32 ∧
    0x30000000 ≤ (0x3000FFFF#32).toNat ∧ (0x3000FFFF#32).toNat < 0x40000000 ∧ (0x3000FFFF#32 : CmdWord) &&& 0x0FFF0000#32 = 0#32 ∧
    (0x30010000#32 : CmdWord) &&& 0x0FFF0000#32 ≠ 0#32 ∧
    0x40000000 ≤ (0x40FFFFFF#32).toNat ∧ (0x40FFFFFF#32).toNat < 0x50000000 ∧ (0x40FFFFFF#32 : CmdWord) &&& 0x0F000000#32 = 0#32 ∧
    (0x41000000#32 : CmdWord) &&& 0x0F000000#32 ≠ 0#32 := by decide
/-- CrcRegisterFollowsItsCommandsInEveryRun and ParametersNeverChange. -/
theorem test_hyp_run : ∃ t, Host.Core.run Sys2Proof.core 2
    { State.reset with inputs := [Script.cmd (.crcUpdate 0x05#8), Script.rx 0x7E#8] } = .next t := ⟨_, rfl⟩
/-- TxStartLoadsTheFrameOrIsTurnedAway: accepted with the shortest and with the longest payload. -/
theorem test_hyp_txStart_shortest : ¬ State.reset.txIdx < State.reset.txLen ∧ (0x00#8).toNat ≤ 250 ∧
    (∀ i : Nat, i < (0x00#8).toNat → State.reset.txPlW.getLsbD i = true) := by decide
theorem test_hyp_txStart_longest : (0xFA#8).toNat ≤ 250 ∧
    (∀ i : Nat, i < (0xFA#8).toNat → (BitVec.allOnes 256).getLsbD i = true) :=
  ⟨by decide, fun i hi => by rw [BitVec.getLsbD_allOnes]; exact decide_eq_true (by have : i < 250 := hi; omega)⟩
/-- TxStartLoadsTheFrameOrIsTurnedAway: busy, overflow at its boundary, an unwritten byte. -/
theorem test_hyp_txStart_busy : { State.reset with txLen := 257, txIdx := 256 }.txIdx < 257 ∧
    250 < (0xFB#8).toNat ∧ ¬ 250 < (0xFA#8).toNat ∧ (∃ i : Nat, i < (0x01#8).toNat ∧ State.reset.txPlW.getLsbD i = false) :=
  ⟨by decide, by decide, by decide, 0, by decide, by decide⟩
/-- TxPopSendsTheNextByte: the last index inside tx_frame, and the idle pop after a 257-byte frame (V-TX-13). IndexOutsideABufferStopsTheMachine: the first outside it. -/
theorem test_hyp_txPop_last : (after (exec .txPop { State.reset with txLen := 257, txIdx := 256 })).map
    (fun s => (s.txIdx, s.events.txDone)) = some (257, true) := by decide +kernel
theorem test_hyp_txPop_idle : ¬ { State.reset with txLen := 257, txIdx := 257 }.txIdx < 257 ∧
    exec .txPop { State.reset with txLen := 257, txIdx := 257 } = .next { State.reset with txLen := 257, txIdx := 257 } :=
  ⟨by decide, rfl⟩
theorem test_hyp_txPop_outside : exec .txPop { State.reset with txLen := 258, txIdx := 257 } = .fault .bufferIndex := by rfl
/-- PopsSendTheLoadedFrameInOrder. -/
theorem test_hyp_pops : ∃ s : State, s.txIdx + 2 = s.txLen ∧ s.txLen ≤ 257 ∧ s.inputs = Script.pops 2 ++ [Script.reset] :=
  ⟨{ State.reset with txLen := 257, txIdx := 255, inputs := [Script.pop, Script.pop, Script.reset] }, rfl, by decide, rfl⟩
/-- PopComesBeforeStartInACycle (V-TX-09, V-TX-10). -/
theorem test_hyp_pop_start : ∃ c : CycleInput, c.rst = false ∧ c.rxValid = false ∧ c.txReady = true ∧ c.cmdValid = true ∧
    decodeCommand c.cmd = .ok (.txStart 0x10#8 0x07#8 0x00#8) ∧ (0x00#8).toNat ≤ 250 ∧
    (after (step { withInput c with txLen := 7, txIdx := 6 })).map (fun t => (t.txErr, t.txIdx, t.txLen)) =
      some (.none, 0, 7) ∧
    (after (step { withInput c with txLen := 7, txIdx := 5 })).map (fun t => (t.txErr, t.txIdx, t.txLen)) =
      some (.txBusy, 6, 7) :=
  ⟨Script.both Script.pop (Script.word 0x40100700#32), by decide +kernel⟩
/-- HuntResyncAndIdleStartOrKeepACandidate and LengthByteStartsTheCollection. -/
theorem test_hyp_bytes : (0x7F#8 : Byte) ≠ 0x7E#8 ∧ (0x01#8 : Byte) ≠ 0x00#8 := by decide
/-- CollectedByteIsStoredAndCounted: the last index of rx_buf, with more bytes needed and with the last one.
IndexOutsideABufferStopsTheMachine: the first index outside, here in SCAN mode and outside the invariant. -/
theorem test_hyp_collect_more : (after (exec (.rxScanCollect false 0x09#8)
    { State.reset with rxState := .collect, rxCnt := 256, rxNeed := 2#8 })).map (fun t => (t.rxCnt, t.rxNeed, t.rxBuf.read 256)) =
      some (257, 1#8, 0x09#8) := by decide +kernel
theorem test_hyp_collect_last : (after (exec (.rxScanCollect false 0x09#8)
    { State.reset with rxState := .collect, rxCnt := 256, rxNeed := 1#8 })).map (fun t => (t.rxCnt, t.frmCnt, t.frmErr)) =
      some (0, 257, .framingError) := by decide +kernel
theorem test_hyp_collect_outside : exec (.rxScanCollect false 0x09#8)
    { State.reset with rxState := .collect, rxCnt := 257, rxNeed := 2#8 } = .fault .bufferIndex := by rfl
/-- SpanByteIsStoredAndCounted: the last byte stored and the first that is not. -/
theorem test_hyp_span_bytes :
    (after (exec (.rxSpan false 0x09#8) { State.reset with rxCnt := 256 })).map (fun t => (t.rxCnt, t.rxBuf)) =
      some (257, [(256, 0x09#8)]) ∧
    (after (exec (.rxSpan false 0x09#8) { State.reset with rxCnt := 257 })).map (fun t => (t.rxCnt, t.rxBuf)) =
      some (258, []) := by decide +kernel
/-- CompletionRecordsAndDispatches: each of the three errors. -/
theorem test_hyp_failed : frameCheck 6 [] 0x7E#8 = .framingError ∧
    frameCheck 7 (Memory.writeSlice [] 0 [0x7E#8, 0x06#8, 0x10#8, 0xBF#8, 0x06#8, 0x5C#8, 0x7E#8]) 0x7E#8 = .lengthError ∧
    frameCheck 7 (Memory.writeSlice [] 0 [0x7E#8, 0x05#8, 0x10#8, 0xBF#8, 0x06#8, 0x5D#8, 0x7E#8]) 0x7E#8 =
      .checksumError 0x5D#8 0x5C#8 ∧
    FrameResult.framingError.err ≠ .none ∧ FrameResult.lengthError.err ≠ .none ∧
    (FrameResult.checksumError 0x5D#8 0x5C#8).err ≠ .none := by decide +kernel
/-- CompletionRecordsAndDispatches: a good candidate. -/
theorem test_hyp_good : frameCheck 8
    (Memory.writeSlice [] 0 [0x7E#8, 0x06#8, 0x05#8, 0xBF#8, 0x20#8, 0x64#8, 0xFB#8, 0x7E#8]) 0x7E#8 =
      .ok ⟨0x05#8, 0xBF#8, 0x20#8, [0x64#8], 0xFB#8⟩ := by decide +kernel
/-- SpanGivesTheVerdictOfDecode: a span of one byte, and each verdict (V-SP-02 to V-SP-04, V-SP-06). -/
theorem test_hyp_span : ∃ s : State, s.params.rxSource = .span ∧ s.rxCnt = 0 ∧ s.inputs = Script.span [0x7E#8] ++ [] :=
  ⟨{ State.reset with params := spanParams, inputs := [Script.rxLast 0x7E#8] }, rfl, rfl, rfl⟩
theorem test_hyp_span_verdicts : decodeSpan [0x7E#8] = .framingError ∧
    decodeSpan [0x7E#8, 0x06#8, 0x10#8, 0xBF#8, 0x06#8, 0x5C#8, 0x7E#8] = .lengthError ∧
    decodeSpan [0x7E#8, 0x05#8, 0x10#8, 0xBF#8, 0x06#8, 0x5D#8, 0x7E#8] = .checksumError 0x5D#8 0x5C#8 ∧
    decodeSpan (gHead ++ [0x7E#8]) = .ok ⟨0x10#8, 0xBF#8, 0x06#8, [], 0x5C#8⟩ := by decide +kernel
/-- DecodingAnEncodedFrameGivesItsFields: the longest payload. -/
theorem test_hyp_longest_payload : (List.replicate 250 (0x00#8 : Byte)).length ≤ 250 := by rw [List.length_replicate]
/-- ScannerReceivesAnEncodedFrameWhole: from HUNT and from GOT_START. -/
theorem test_hyp_scanner : ∃ s u : State, s.params.rxSource = .scan ∧ s.rxState = .hunt ∧
    s.inputs = Script.rxs (encodeFrame 0x10#8 0x06#8 []) ++ [] ∧ u.params.rxSource = .scan ∧
    u.rxState = .gotStart ∧ u.rxCnt = 1 ∧ u.rxBuf.read 0 = 0x7E#8 ∧
    u.inputs = Script.rxs (encodeFrame 0x10#8 0x06#8 []) ++ [] :=
  ⟨{ State.reset with inputs := Script.rxs (encodeFrame 0x10#8 0x06#8 []) },
    { State.reset with rxState := .gotStart, rxCnt := 1, rxBuf := [(0, 0x7E#8)],
                       inputs := Script.rxs (encodeFrame 0x10#8 0x06#8 []) },
    rfl, rfl, (List.append_nil _).symm, rfl, rfl, rfl, rfl, (List.append_nil _).symm⟩
/-- DispatchFollowsTheTypeMap, PlainVariantsRecordTheirDispatch, SettingsRequestRecordsItsSubVariant, StatusUpdateUnpacksAMatchedBroadcast: a wrong
length, a right length with a wrong channel, and a match. -/
theorem test_hyp_pins : ∃ s : State, (∃ n, (some 31 : Option Nat) = some n ∧ s.frmPlen ≠ n) ∧
    (∀ n, (none : Option Nat) = some n → s.frmPlen = n) ∧ (∃ c, (some 0xFF#8 : Option Byte) = some c ∧ s.frmCh ≠ c) ∧
    (∀ n, (some 3 : Option Nat) = some n → s.frmPlen = n) ∧ (∀ c, (some 0x05#8 : Option Byte) = some c → s.frmCh = c) := by
  refine ⟨received 0x05#8 0x22#8 [0x01#8, 0x00#8, 0x00#8], ⟨31, rfl, by decide⟩, ?_, ⟨0xFF#8, rfl, by decide⟩, ?_, ?_⟩
  · intro n h; cases h
  · intro n h; cases h; rfl
  · intro c h; cases h; rfl
/-- DispatchFollowsTheTypeMap: a code with no entry, and one with an entry. -/
theorem test_hyp_entries : defaultTypeMap.entry 0x99#8 = none ∧
    defaultTypeMap.entry 0x22#8 = some ⟨.settingsRequest, some 3, none⟩ := by decide
/-- SettingsRequestRecordsItsSubVariant: a listed code and one that is not. -/
theorem test_hyp_subcodes : List.lookup (0x20#8, 0xFF#8, 0x00#8) defaultSubcodeMap = some .faultLog ∧
    List.lookup (0x07#8, 0x07#8, 0x07#8) defaultSubcodeMap = none := by decide
/-- StatusOutputsAreTheStatedBits and TemperaturesAreExact: no snapshot, Celsius (R257) and Fahrenheit. -/
theorem test_hyp_outputs : State.reset.stValid = false ∧
    (statusOutputs someCapMap { State.reset with stSnap := r257, stValid := true }).isSome = true ∧
    (r257.read 9).getLsbD 0 = true ∧
    (statusOutputs someCapMap { State.reset with stValid := true }).isSome = true ∧ (Memory.read [] 9).getLsbD 0 = false := by
  decide +kernel
/-- CapabilityOutputsAreGated and OutputsShowOnlyDefinedBytes: an admissible P_CAP_FIELD. -/
theorem test_hyp_capMap : someCapMap.Admissible := by
  refine ⟨by decide, by decide, ?_⟩
  intro j j' i k hj hj'
  unfold CapPos.takes at hj hj'
  fin_cases j <;> fin_cases j' <;> simp [someCapMap, Vector.get] at hj hj' ⊢ <;> omega
/-- ResetLoadsEveryStatedValue and ResetCycleLeavesTheResetState. -/
theorem test_hyp_reset : (withInput { Script.reset with rxValid := true }).inputs = [{ Script.reset with rxValid := true }] ∧
    { Script.reset with rxValid := true }.rst = true := by decide
/-- A candidate in progress meets the invariant: EveryStepKeepsTheInvariant, OnlyAnUnwrittenPayloadStopsTheMachine,
ScannerNeverReportsLengthError, UnspecifiedBytesNeverMatter. -/
theorem test_hyp_inv : (collecting gHead 1#8 0x5C#8).Inv := by
  refine ⟨by unfold Memory.Ok; decide +kernel, ⟨by decide, by decide⟩, ⟨by decide, by decide⟩, ⟨by decide, by decide⟩,
    ⟨by decide, by decide⟩, ?_, by decide, by decide, by decide, by decide, by decide, by decide, by decide, by decide,
    by decide, by decide⟩
  change 2 ≤ 6 ∧ _
  decide +kernel
/-- IndexOutsideABufferStopsTheMachine: a SPAN machine under the invariant, on a row it never selects. -/
theorem test_hyp_outside_inv : { State.reset with params := spanParams, rxCnt := 258 }.Inv ∧
    exec (.rxScanCollect false 0x09#8) { State.reset with params := spanParams, rxCnt := 258 } = .fault .bufferIndex := by
  refine ⟨⟨⟨by decide, by decide⟩, ⟨by decide, by decide⟩, ⟨by decide, by decide⟩, ⟨by decide, by decide⟩,
    ⟨by decide, by decide⟩, ⟨rfl, rfl, by decide, fun _ h => absurd h (by decide)⟩, by decide, by decide, by decide, by decide,
    by decide, by decide, by decide, by decide, by decide, by decide⟩, rfl⟩
theorem test_hyp_inv_step : (after (step { collecting gHead 1#8 0x5C#8 with inputs := [Script.rx 0x7E#8] })).map
    (fun t => (t.events.frame, t.frmErr, t.frmCnt)) = some (true, .none, 7) := by decide +kernel
/-- OnlyAnUnwrittenPayloadStopsTheMachine: its second case. -/
theorem test_hyp_inv_fault : step { collecting gHead 1#8 0x5C#8 with inputs := [Script.word 0x40100701#32] } =
    .fault .unwrittenPayload := by rfl
/-- UnspecifiedBytesNeverMatter and OutputsShowOnlyDefinedBytes: two states that differ in unspecified bytes. -/
theorem test_hyp_same : SameDefined (collecting gHead 1#8 0x5C#8)
    { collecting gHead 1#8 0x5C#8 with
      rxBuf := Memory.write (collecting gHead 1#8 0x5C#8).rxBuf 200 0xAA#8, frmPayload := [(0, 1#8)], stSnap := [(3, 2#8)],
      txPl := [(7, 3#8)], txFrame := [(0, 4#8)] } := by
  refine ⟨rfl, ?_, fun i hi => absurd hi (Nat.not_lt_zero _), fun i hi => absurd hi.1 (by decide), fun i hi => ?_,
    fun i hi => absurd hi (Nat.not_lt_zero _)⟩
  · intro i hi
    have h₁ : i < 6 := hi.1
    have : ∀ i < 6, (collecting gHead 1#8 0x5C#8).rxBuf.read i =
        (Memory.write (collecting gHead 1#8 0x5C#8).rxBuf 200 0xAA#8).read i := by decide +kernel
    exact this i h₁
  · exact absurd hi (by simp [collecting, State.reset])
/-- ReceiveAndCommandCommute and EachPartWritesOnlyItsOwnElements. -/
theorem test_hyp_commute : instrPart (.rxSpan true 0x7E#8) = .receiver ∧ isCommand (.txStart 0x10#8 0x07#8 0x00#8) = true ∧
    instrPart .txPop ≠ .reset ∧ (∃ a, exec (.rxSpan true 0x7E#8) State.reset = .next a) ∧
    (∃ b, exec (.txStart 0x10#8 0x07#8 0x00#8) State.reset = .next b) :=
  ⟨rfl, rfl, by decide, ⟨_, rfl⟩, ⟨_, rfl⟩⟩
/-- EventsTellWhatTheCycleDid: a cycle with `ev_frame`, `ev_msg` and `ev_status`, and one without any. -/
theorem test_hyp_events : (after (step (State.reset.withFetchWord 8 0x13))).map
    (fun t => (t.events.frame, t.events.msg, t.events.status)) = some (true, true, true) ∧
    (after (step State.reset)).map (·.events) = some {} := by decide +kernel
/-- OutputsShowOnlyDefinedBytes: tx_valid = 1, and a specified byte of each buffer at the last index of its range. -/
theorem test_hyp_outputs_defined : txValid { State.reset with txLen := 257, txIdx := 256 } = true ∧
    249 < { State.reset with frmPlen := 250 }.frmPlen ∧ { State.reset with stValid := true }.stValid = true ∧ 30 < 31 ∧
    ((BitVec.allOnes 256).getLsbD 255 = true) := by decide +kernel
/-- HostReadsCanBeRepeated: a cycle with no event, one with an unchanged `ev_status`, and a TX_WRITE of another byte. -/
theorem test_hyp_reads : (after (step (withInput (Script.cmd (.txWrite 0xFF#8 0x07#8))))).map (·.events) = some {} ∧
    (Script.cmd (.txWrite 0xFF#8 0x07#8)).rst = false ∧ (Script.cmd (.txWrite 0xFF#8 0x07#8)).cmdValid = true ∧
    decodeCommand (Script.cmd (.txWrite 0xFF#8 0x07#8)).cmd = .ok (.txWrite 0xFF#8 0x07#8) ∧ (0xFF#8).toNat ≠ 254 ∧
    instrPart (.txWrite 0xFF#8 0x07#8) ≠ .crc := by decide +kernel
theorem test_hyp_reads_unchanged :
    (after (step { State.reset.withFetchWord 8 0x13 with stValid := true })).map
      (fun t => (t.events.status, t.stChanged)) = some (true, false) := by decide +kernel
/-- ReceivedBytesChangeReceiveState: each way a byte can leave the receive state as it is, and a byte that changes it. -/
theorem test_hyp_received : SameReceiveState State.reset State.reset ∧
    step (withInput (Script.rx 0x7D#8)) = .next State.reset ∧
    step { withInput (Script.rx 0x7E#8) with rxState := .gotStart } = .next { State.reset with rxState := .gotStart } ∧
    step { withInput (Script.rx 0x09#8) with params := spanParams, rxCnt := 258, rxLastb := 0x09#8 } =
      .next { State.reset with params := spanParams, rxCnt := 258, rxLastb := 0x09#8 } ∧
    (after (step (withInput (Script.rx 0x7E#8)))).map (·.rxState) = some .gotStart :=
  ⟨⟨rfl, rfl, rfl, rfl, rfl, rfl, rfl, rfl, rfl, rfl, rfl, rfl, rfl, rfl, rfl, rfl⟩, rfl, rfl, rfl, rfl⟩

end Sys2Proof.Tests
end

section
/-! The command words of 30_encoding.md R87 against their match and mask: the op field, the reserved bits, and that a
word matching no row only raises `ev_cmd_err` (R90, R92). -/

namespace Sys2Proof.Machine

/-- The op field of a word, from the range of words that holds it. -/
theorem op_eq_of_range {w : CmdWord} (op : BitVec 4) (hlo : op.toNat * 0x10000000 ≤ w.toNat)
    (hhi : w.toNat < (op.toNat + 1) * 0x10000000) : w.extractLsb' 28 4 = op := by
  apply BitVec.eq_of_toNat_eq
  rw [BitVec.extractLsb'_toNat, Nat.shiftRight_eq_div_pow]
  have := w.isLt
  omega

/-- A field that a mask covers is 0 where the masked word is 0. -/
theorem extractLsb'_eq_zero_of_and {n s k : Nat} {w m : BitVec n} (hm : m.extractLsb' s k = BitVec.allOnes k)
    (h : w &&& m = 0#n) : w.extractLsb' s k = 0#k := by
  calc w.extractLsb' s k = (w &&& m).extractLsb' s k := by rw [BitVec.extractLsb'_and, hm, BitVec.and_allOnes]
    _ = 0#k := by rw [h, BitVec.extractLsb'_zero]

/-- A legal word matches its op's row: the only row `r` of that op. -/
theorem match_of_legalCommand {w : CmdWord} {op : BitVec 4} (h : legalCommand w) (hop : w.extractLsb' 28 4 = op)
    {r : CmdWord × CmdWord} (hr : ∀ q ∈ commandRows, q.1.extractLsb' 28 4 = op → q = r) : w &&& r.2 = r.1 := by
  obtain ⟨q, hq, hw⟩ := h
  have hmask : ∀ q ∈ commandRows, q.2.extractLsb' 28 4 = BitVec.allOnes 4 := by simp [commandRows]
  obtain rfl : q = r := hr q hq (by
    rw [← hw, BitVec.extractLsb'_and, hmask q hq, BitVec.and_allOnes, hop])
  exact hw

/-- A word the decoder takes matches a row, or is one of the two illegal operations. -/
theorem legalCommand_or_illegal {w : CmdWord} {i : Instr} (h : decodeCommand w = .ok i) :
    legalCommand w ∨ (∃ low, i = .illegalOp67 low) ∨ ∃ low, i = .illegalOp8F low := by
  have hw : encode [] i = some (.cmd32 w) := encode_decodeCommand h
  have hi := decodeCommand_isCommand h
  cases i <;> simp only [isCommand, Bool.false_eq_true] at hi <;> cases hw
  case nop => exact .inl ⟨(0x00000000#32, 0xFFFFFFFF#32), by simp [commandRows], rfl⟩
  case crcInit => exact .inl ⟨(0x10000000#32, 0xFFFFFFFF#32), by simp [commandRows], rfl⟩
  case crcUpdate b =>
    refine .inl ⟨(0x20000000#32, 0xFFFFFF00#32), by simp [commandRows], ?_⟩
    change (2#4 ++ 0#20 ++ b) &&& (BitVec.allOnes 4 ++ BitVec.allOnes 20 ++ 0#8) = 2#4 ++ 0#20 ++ 0#8
    simp only [BitVec.and_append, BitVec.and_allOnes, BitVec.and_zero]
  case txWrite j b =>
    refine .inl ⟨(0x30000000#32, 0xFFFF0000#32), by simp [commandRows], ?_⟩
    change (3#4 ++ 0#12 ++ j ++ b) &&& (BitVec.allOnes 4 ++ BitVec.allOnes 12 ++ 0#8 ++ 0#8) = 3#4 ++ 0#12 ++ 0#8 ++ 0#8
    simp only [BitVec.and_append, BitVec.and_allOnes, BitVec.and_zero]
  case txStart ch t n =>
    refine .inl ⟨(0x40000000#32, 0xFF000000#32), by simp [commandRows], ?_⟩
    change (4#4 ++ 0#4 ++ ch ++ t ++ n) &&& (BitVec.allOnes 4 ++ BitVec.allOnes 4 ++ 0#8 ++ 0#8 ++ 0#8) =
      4#4 ++ 0#4 ++ 0#8 ++ 0#8 ++ 0#8
    simp only [BitVec.and_append, BitVec.and_allOnes, BitVec.and_zero]
  case cfgWrite cap pumps =>
    refine .inl ⟨(0x50000000#32, 0xFFFF80C0#32), by simp [commandRows], ?_⟩
    change (5#4 ++ 0#13 ++ cap ++ 0#2 ++ pumps) &&&
      (BitVec.allOnes 4 ++ BitVec.allOnes 13 ++ 0#7 ++ BitVec.allOnes 2 ++ 0#6) = 5#4 ++ 0#13 ++ 0#7 ++ 0#2 ++ 0#6
    simp only [BitVec.and_append, BitVec.and_allOnes, BitVec.and_zero]
  case illegalOp67 low => exact .inr (.inl ⟨low, rfl⟩)
  case illegalOp8F low => exact .inr (.inr ⟨low, rfl⟩)

theorem exec_illegalOp67 (low : BitVec 29) (s : State) :
    exec (.illegalOp67 low) s = .next (raiseError .illegalCommand s) := rfl

theorem exec_illegalOp8F (low : BitVec 31) (s : State) :
    exec (.illegalOp8F low) s = .next (raiseError .illegalCommand s) := rfl

/-- A word that matches no row only raises `ev_cmd_err`, whether an illegal operation or a reserved bit makes it so. -/
theorem runWord_of_not_legalCommand {w : CmdWord} (h : ¬ legalCommand w) (s : State) :
    runWord (.cmd32 w) s = .next (raiseError .illegalCommand s) := by
  rw [runWord_cmd32]
  cases hd : decodeCommand w with
  | ok i =>
    obtain hl | ⟨low, rfl⟩ | ⟨low, rfl⟩ := legalCommand_or_illegal hd
    · exact absurd hl h
    · exact exec_illegalOp67 low s
    · exact exec_illegalOp8F low s
  | error e =>
    obtain rfl := decodeCommand_error hd
    rfl

/-- Settles O9: a word that matches no row is either rejected for a reserved bit or decodes to an illegal row, and all
three answer the same. -/
theorem illegalCommandsOnlyRaiseTheirEvent : Obligations.IllegalCommandsOnlyRaiseTheirEvent :=
  ⟨exec_illegalOp67, exec_illegalOp8F, fun _ s hw => runWord_of_not_legalCommand hw s, rfl⟩

end Sys2Proof.Machine
end

section
/-! NOP (30_encoding.md R91): the operation, the illegal words of its op, and the cycle that presents it. -/

namespace Sys2Proof.Machine

@[simp] theorem exec_nop (s : State) : exec .nop s = .next s := rfl

/-- Of the words of op 0x0 only NOP's is legal. -/
theorem eq_zero_of_legalCommand {w : CmdWord} (hop : w.extractLsb' 28 4 = 0#4) (h : legalCommand w) : w = 0#32 := by
  have hw : w &&& BitVec.allOnes 32 = 0#32 :=
    match_of_legalCommand h hop (r := (0x00000000#32, 0xFFFFFFFF#32)) (by simp [commandRows])
  rwa [BitVec.and_allOnes] at hw

/-- A step takes the first of the coming inputs off and runs it. -/
theorem step_inputs_cons (c : CycleInput) (rest : List CycleInput) (s : State) :
    step { s with inputs := c :: rest } = runCycle c (beginCycle rest s) := step_eq _

/-- Presenting NOP's word is presenting no command. -/
theorem runCommand_nop (c : CycleInput) (s : State) :
    runCommand { c with cmdValid := true, cmd := 0x00000000#32 } s = runCommand { c with cmdValid := false } s := by
  have hd : decodeCommand 0x00000000#32 = .ok .nop := decodeCommand_nop
  simp [runCommand_eq, hd]

/-- The cycle that presents NOP is the cycle that presents no command: under reset neither runs one, and otherwise the
other ports' sub-steps are the same. -/
theorem runCycle_nop (c : CycleInput) (s : State) :
    runCycle { c with cmdValid := true, cmd := 0x00000000#32 } s = runCycle { c with cmdValid := false } s := by
  cases c.rst with
  | true => rw [runCycle_rst rfl, runCycle_rst rfl]
  | false =>
    rw [runCycle_noRst rfl, runCycle_noRst rfl, runSubSteps_eq, runSubSteps_eq]
    simp only [runCommand_nop { c with rst := false }]

/-- Settles O7: only the zero word of op 0x0 is legal, and NOP's sub-step is that of no command. -/
theorem nopChangesNothing : Obligations.NopChangesNothing := by
  refine ⟨exec_nop, fun w s hlt hne => ?_, fun s c rest => ?_⟩
  · have hop : w.extractLsb' 28 4 = 0#4 := op_eq_of_range 0#4 (Nat.zero_le _) hlt
    exact runWord_of_not_legalCommand (fun hl => hne (eq_zero_of_legalCommand hop hl)) s
  · rw [step_inputs_cons, step_inputs_cons]
    exact runCycle_nop c _

end Sys2Proof.Machine
end

section
/-! CFG_WRITE (30_encoding.md R88): what it writes, the outputs it gates (44_status_unpack.md R251, R255), and the words
of its op. -/

namespace Sys2Proof.Machine

theorem exec_cfgWrite (cap : BitVec 7) (pumps : BitVec 6) (s : State) :
    exec (.cfgWrite cap pumps) s = .next { s with cfgCapEn := cap, cfgPumpPresent := pumps } := rfl

/-- A disabled capability item reads 0. -/
theorem stCap_disabled {s : State} {j : Fin 7} (h : s.cfgCapEn.getLsbD j.val = false) (pf : CapMap) :
    stCap pf s j = 0#8 := by
  simp only [stCap, h]; rfl

/-- An enabled capability item reads its field of the snapshot, as every item does when all are enabled. -/
theorem stCap_enabled {s : State} {j : Fin 7} (h : s.cfgCapEn.getLsbD j.val = true) (pf : CapMap) :
    stCap pf s j = stCap pf { s with cfgCapEn := BitVec.allOnes 7 } j := by
  have hall : (BitVec.allOnes 7).getLsbD j.val = true :=
    BitVec.getLsbD_allOnes.trans (decide_eq_true j.isLt)
  simp only [stCap, h, hall]

/-- A word of op 0x5 with every reserved bit 0 decodes to CFG_WRITE of its two fields. -/
theorem decodeCommand_cfgWrite_of_clear {w : CmdWord} (hop : w.extractLsb' 28 4 = 5#4)
    (h : w &&& 0x0FFF80C0#32 = 0#32) :
    decodeCommand w = .ok (.cfgWrite (w.extractLsb' 8 7) (w.extractLsb' 0 6)) := by
  have hhi : w.extractLsb' 15 13 = 0#13 := extractLsb'_eq_zero_of_and (by decide) h
  have hlo : w.extractLsb' 6 2 = 0#2 := extractLsb'_eq_zero_of_and (by decide) h
  unfold decodeCommand
  rw [hop, hhi, hlo]
  rfl

/-- A legal word of op 0x5 has every reserved bit 0. -/
theorem cfgWrite_clear_of_legalCommand {w : CmdWord} (hop : w.extractLsb' 28 4 = 5#4) (h : legalCommand w) :
    w &&& 0x0FFF80C0#32 = 0#32 := by
  have hw : w &&& 0xFFFF80C0#32 = 0x50000000#32 :=
    match_of_legalCommand h hop (r := (0x50000000#32, 0xFFFF80C0#32)) (by simp [commandRows])
  calc w &&& 0x0FFF80C0#32 = (w &&& 0xFFFF80C0#32) &&& 0x0FFF80C0#32 := by rw [BitVec.and_assoc]; rfl
    _ = 0#32 := by rw [hw]; rfl

/-- Settles O8: the operation by its one equation, the gates by the new enables, the words by their reserved bits. -/
theorem cfgWriteLoadsBothFields : Obligations.CfgWriteLoadsBothFields := by
  refine ⟨exec_cfgWrite, fun _ => rfl, fun cap pumps s t ht => ?_, fun w s hlo hhi => ?_⟩
  · cases (exec_cfgWrite cap pumps s).symm.trans ht
    exact ⟨fun _ _ _ => rfl, fun pf _ hj => stCap_disabled hj pf, fun pf _ hj => stCap_enabled hj pf⟩
  · have hop : w.extractLsb' 28 4 = 5#4 := op_eq_of_range 5#4 hlo hhi
    refine ⟨fun hclear => ?_, fun hset => ?_⟩
    · rw [runWord_cmd32, decodeCommand_cfgWrite_of_clear hop hclear]
      exact exec_cfgWrite _ _ s
    · exact runWord_of_not_legalCommand (fun hl => hset (cfgWrite_clear_of_legalCommand hop hl)) s

end Sys2Proof.Machine
end

section
/-! The receive steps that complete nothing (30_encoding.md R85, 41_frame_rx.md R144, R145). -/

namespace Sys2Proof.Machine

theorem exec_rxScanHunt (l : Bool) (b : Byte) (s : State) : exec (.rxScanHunt l b) s = execRxScanHunt l b s := rfl

theorem exec_rxScanResync (l : Bool) (s : State) : exec (.rxScanResync l) s = .next s := rfl

/-- Settles O21: the opening delimiter is one store at index 0, and every other case answers the state it had. -/
theorem huntResyncAndIdleStartOrKeepACandidate : Obligations.HuntResyncAndIdleStartOrKeepACandidate := by
  refine ⟨exec_rxIdle, fun l b s hb => ?_, fun l s => ?_, exec_rxScanResync⟩
  · rw [exec_rxScanHunt, execRxScanHunt_other hb]
  · exact ⟨_, execRxScanHunt_delim l s, rfl, Memory.read_write_same s.rxBuf 0 Config.delim, 
      fun _ hj => Memory.read_write_other s.rxBuf hj Config.delim⟩

end Sys2Proof.Machine
end

section
/-! CRC_INIT (40_crc8.md R123): the preset, the output it gives, and the illegal words of its op. -/

namespace Sys2Proof.Machine

theorem exec_crcInit (s : State) : exec .crcInit s = .next { s with crcReg := 0x02#8 } := rfl

/-- The output mask takes the preset off: the checksum of no bytes is 0. -/
theorem crcOut_of_preset {s : State} (h : s.crcReg = 0x02#8) : crcOut s = 0x00#8 := by
  rw [crcOut, h]; rfl

/-- Presetting a register that holds the preset already is no change. -/
theorem exec_crcInit_of_preset {s : State} (h : s.crcReg = 0x02#8) : exec .crcInit s = .next s := by
  rw [exec_crcInit, ← h]

/-- Of the words of op 0x1 only CRC_INIT's is legal. -/
theorem eq_crcInit_of_legalCommand {w : CmdWord} (hop : w.extractLsb' 28 4 = 1#4) (h : legalCommand w) :
    w = 0x10000000#32 := by
  have hw : w &&& BitVec.allOnes 32 = 0x10000000#32 :=
    match_of_legalCommand h hop (r := (0x10000000#32, 0xFFFFFFFF#32)) (by simp [commandRows])
  rwa [BitVec.and_allOnes] at hw

/-- Settles O10: the operation by its one equation, and the other words of op 0x1 by the only row of that op. -/
theorem crcInitPresetsTheRegister : Obligations.CrcInitPresetsTheRegister := by
  refine ⟨exec_crcInit, fun _ => crcOut_of_preset rfl, fun _ => exec_crcInit_of_preset, fun w s hlo hhi hne => ?_⟩
  have hop : w.extractLsb' 28 4 = 1#4 := op_eq_of_range 1#4 hlo hhi
  exact runWord_of_not_legalCommand (fun hl => hne (eq_crcInit_of_legalCommand hop hl)) s

end Sys2Proof.Machine
end

section
/-! The receiver's completion of a candidate (41_frame_rx.md R156): the operation it dispatches, and the error it
records. -/

namespace Sys2Proof.Machine

/-- A variant's operation has the variant's meaning. -/
theorem exec_instr (v : Variant) (k : Pins) (s : State) : exec (v.instr k) s = runVariant v k s := by
  cases v <;> rfl

/-- Dispatch runs the operation that the frame's type code decodes to (43_dispatch.md R203). -/
theorem dispatch_eq_exec (s : State) : dispatch s = exec (decodeType s.params.typeMap s.frmType) s := by
  unfold dispatch decodeType
  cases s.params.typeMap.entry s.frmType with
  | none => rfl
  | some e => exact (exec_instr e.variant e.pins s).symm

/-- Past a written slice every byte reads as it did. -/
theorem Memory.read_writeSlice_beyond (m : Memory) {i j : Nat} {bs : List Byte} (h : i + bs.length ≤ j) :
    (m.writeSlice i bs).read j = m.read j := by
  rw [Memory.read_writeSlice, dif_neg (by omega)]

/-- A completion records the checker's verdict. -/
theorem complete_frmErr (s : State) :
    ∃ t, complete s = .next t ∧ t.frmErr = (frameCheck s.rxCnt s.rxBuf s.rxLastb).err := by
  cases h : frameCheck s.rxCnt s.rxBuf s.rxLastb with
  | framingError => exact ⟨_, complete_framingError h, rfl⟩
  | lengthError => exact ⟨_, complete_lengthError h, rfl⟩
  | checksumError crcRx crcCalc => exact ⟨_, complete_checksumError h, rfl⟩
  | ok f =>
    obtain ⟨v, hv, hframe, -⟩ := dispatch_spec (latchFrame f (countCandidate s))
    exact ⟨_, complete_ok h hv, by rw [hframe]; rfl⟩

/-- Settles O25: a failed candidate by its verdict, a good one by the state latched, on which dispatch is the type
code's operation and answers a next state. -/
theorem completionRecordsAndDispatches : Obligations.CompletionRecordsAndDispatches := by
  refine ⟨fun s r h hr => ?_, fun s f h => ?_, rfl⟩
  · cases r with
    | framingError => exact complete_framingError h
    | lengthError => exact complete_lengthError h
    | checksumError crcRx crcCalc => exact complete_checksumError h
    | ok f => exact absurd rfl hr
  · obtain ⟨v, hv, -⟩ := dispatch_spec (latchFrame f (countCandidate s))
    refine ⟨latchFrame f (countCandidate s), v, rfl, Memory.readSlice_writeSlice s.frmPayload 0 f.payload,
      fun j hj => Memory.read_writeSlice_beyond s.frmPayload (by omega), ?_, complete_ok h hv⟩
    exact (dispatch_eq_exec _).symm.trans hv

end Sys2Proof.Machine
end

section
/-! The bytes of a span (41_frame_rx.md R151): the state that takes one, and the verdicts of the shortest and the
overlong spans. -/

namespace Sys2Proof.Machine

/-- The state that has taken a span's byte. -/
def takeSpanByte (b : Byte) (s : State) : State :=
  { s with
    rxBuf := if s.rxCnt < Config.rxBufBytes then s.rxBuf.write s.rxCnt b else s.rxBuf,
    rxCnt := min (s.rxCnt + 1) Config.cntSat,
    rxLastb := b }

theorem takeSpanByte_rxBuf_inside {s : State} (h : s.rxCnt < 257) (b : Byte) :
    (takeSpanByte b s).rxBuf = s.rxBuf.write s.rxCnt b := if_pos h

theorem takeSpanByte_rxBuf_full {s : State} (h : 257 ≤ s.rxCnt) (b : Byte) : (takeSpanByte b s).rxBuf = s.rxBuf :=
  if_neg (Nat.not_lt.2 h)

theorem exec_rxSpan_unmarked (b : Byte) (s : State) : exec (.rxSpan false b) s = .next (takeSpanByte b s) := rfl

theorem exec_rxSpan_marked (b : Byte) (s : State) : exec (.rxSpan true b) s = complete (takeSpanByte b s) := rfl

/-- The marked byte records the checker's verdict on the span. -/
theorem exec_rxSpan_marked_frmErr (b : Byte) (s : State) : ∃ t, exec (.rxSpan true b) s = .next t ∧
    t.frmErr = (frameCheck (min (s.rxCnt + 1) 258) (takeSpanByte b s).rxBuf b).err :=
  complete_frmErr (takeSpanByte b s)

/-- A candidate of fewer than seven bytes has no room for a frame. -/
theorem frameCheck_short {cnt : Nat} (h : cnt < 7) (buf : Memory) (lastb : Byte) :
    frameCheck cnt buf lastb = .framingError := if_pos (.inl h)

/-- A count of more than 257 exceeds what any length byte can say. -/
theorem frameCheck_overlong {cnt : Nat} (h : 257 < cnt) (buf : Memory) (lastb : Byte) :
    frameCheck cnt buf lastb = .framingError ∨ frameCheck cnt buf lastb = .lengthError := by
  have hbyte := (buf.read 1).isLt
  unfold frameCheck
  rw [if_pos (show (buf.read 1).toNat ≠ cnt - 2 by omega)]
  exact ite_eq_or_eq ..

/-- Settles O24: the state that took the byte serves both forms, and its count decides the two extreme spans. -/
theorem spanByteIsStoredAndCounted : Obligations.SpanByteIsStoredAndCounted := by
  intro b s
  obtain ⟨t, ht, herr⟩ := exec_rxSpan_marked_frmErr b s
  refine ⟨takeSpanByte b s, rfl, fun hin => ?_, fun hfull => takeSpanByte_rxBuf_full hfull b,
    exec_rxSpan_unmarked b s, exec_rxSpan_marked b s, fun hfirst => ⟨t, ht, ?_⟩, fun hfull => ⟨t, ht, ?_⟩⟩
  · rw [takeSpanByte_rxBuf_inside hin]
    exact ⟨Memory.read_write_same s.rxBuf s.rxCnt b, fun j hj => Memory.read_write_other s.rxBuf hj b⟩
  · rw [herr, frameCheck_short (by omega)]
    rfl
  · rw [herr]
    exact (frameCheck_overlong (by omega) _ b).imp (congrArg FrameResult.err) (congrArg FrameResult.err)

end Sys2Proof.Machine
end

section
/-! The transmitter's command words (30_encoding.md R87, R90): a word of op 0x3 or 0x4 decodes to its operation on its
fields where the reserved bits are 0, and is illegal elsewhere. -/

namespace Sys2Proof.Machine

/-- A legal word has the bits 0 that its op's row masks and has 0. -/
theorem reserved_clear_of_legalCommand {w m : CmdWord} {op : BitVec 4} (h : legalCommand w)
    (hop : w.extractLsb' 28 4 = op) {r : CmdWord × CmdWord}
    (hr : ∀ q ∈ commandRows, q.1.extractLsb' 28 4 = op → q = r) (hm : r.2 &&& m = m) (h0 : r.1 &&& m = 0#32) :
    w &&& m = 0#32 := by
  calc w &&& m = (w &&& r.2) &&& m := by rw [BitVec.and_assoc, hm]
    _ = 0#32 := by rw [match_of_legalCommand h hop hr, h0]

theorem decodeCommand_txWrite_of_clear {w : CmdWord} (hop : w.extractLsb' 28 4 = 3#4) (h : w &&& 0x0FFF0000#32 = 0#32) :
    decodeCommand w = .ok (.txWrite (w.extractLsb' 8 8) (w.extractLsb' 0 8)) := by
  have hres : w.extractLsb' 16 12 = 0#12 := extractLsb'_eq_zero_of_and (by decide) h
  unfold decodeCommand
  rw [hop, hres]
  rfl

theorem decodeCommand_txStart_of_clear {w : CmdWord} (hop : w.extractLsb' 28 4 = 4#4) (h : w &&& 0x0F000000#32 = 0#32) :
    decodeCommand w = .ok (.txStart (w.extractLsb' 16 8) (w.extractLsb' 8 8) (w.extractLsb' 0 8)) := by
  have hres : w.extractLsb' 24 4 = 0#4 := extractLsb'_eq_zero_of_and (by decide) h
  unfold decodeCommand
  rw [hop, hres]
  rfl

theorem txWrite_clear_of_legalCommand {w : CmdWord} (hop : w.extractLsb' 28 4 = 3#4) (h : legalCommand w) :
    w &&& 0x0FFF0000#32 = 0#32 :=
  reserved_clear_of_legalCommand h hop (r := (0x30000000#32, 0xFFFF0000#32)) (by simp [commandRows]) rfl rfl

theorem txStart_clear_of_legalCommand {w : CmdWord} (hop : w.extractLsb' 28 4 = 4#4) (h : legalCommand w) :
    w &&& 0x0F000000#32 = 0#32 :=
  reserved_clear_of_legalCommand h hop (r := (0x40000000#32, 0xFF000000#32)) (by simp [commandRows]) rfl rfl

end Sys2Proof.Machine
end

section
/-! TX_WRITE (42_frame_tx.md R182). -/

namespace Sys2Proof.Machine

theorem exec_txWrite (i b : Byte) (s : State) : exec (.txWrite i b) s =
    .next { s with txPl := s.txPl.write i.toNat b, txPlW := s.txPlW ||| (1#256 <<< i.toNat) } := rfl

/-- Settles O15: the operation by its one equation, its byte by the buffer's laws and its ghost bit by that of the or. -/
theorem txWriteStoresOneStagedByte : Obligations.TxWriteStoresOneStagedByte := by
  refine ⟨fun i b s => ⟨_, exec_txWrite i b s, rfl, Memory.read_write_same s.txPl i.toNat b,
    fun _ hj => Memory.read_write_other s.txPl hj b, ?_, fun j hj => ?_⟩, fun w s hlo hhi => ?_⟩
  · rw [execTxWrite_ghost, decide_eq_true rfl, Bool.or_true]
  · rw [execTxWrite_ghost, decide_eq_false hj, Bool.or_false]
  · have hop : w.extractLsb' 28 4 = 3#4 := op_eq_of_range 3#4 hlo hhi
    refine ⟨fun hclear => ?_, fun hset => ?_⟩
    · rw [runWord_cmd32, decodeCommand_txWrite_of_clear hop hclear]
    · exact runWord_of_not_legalCommand (fun hl => hset (txWrite_clear_of_legalCommand hop hl)) s

end Sys2Proof.Machine
end

section
/-! TX_START (42_frame_tx.md R184): its four answers, and the bytes of a frame written to tx_frame (30_encoding.md R80). -/

namespace Sys2Proof.Machine

theorem txBusy_iff (s : State) : txBusy s = true ↔ s.txIdx < s.txLen := decide_eq_true_iff

theorem exec_txStart_busy {s : State} (h : s.txIdx < s.txLen) (ch ty n : Byte) :
    exec (.txStart ch ty n) s = .next (raiseError .txBusy s) := if_pos ((txBusy_iff s).2 h)

theorem exec_txStart_overflow {s : State} (h : ¬ s.txIdx < s.txLen) {n : Byte} (hn : 250 < n.toNat) (ch ty : Byte) :
    exec (.txStart ch ty n) s = .next (raiseError .encodeOverflow s) :=
  (if_neg (mt (txBusy_iff s).1 h)).trans (if_pos hn)

/-- An idle transmitter takes a payload that fits where every byte of it has been staged. -/
theorem exec_txStart_idle {s : State} (h : ¬ s.txIdx < s.txLen) {n : Byte} (hn : n.toNat ≤ 250) (ch ty : Byte) :
    exec (.txStart ch ty n) s =
      if stagedWritten s n.toNat then .next (loadFrame (encodeFrame ch ty (stagedPayload s n.toNat)) s)
      else .fault .unwrittenPayload :=
  (if_neg (mt (txBusy_iff s).1 h)).trans (if_neg (Nat.not_lt.2 hn))

theorem stagedWritten_eq_false {s : State} {n i : Nat} (hi : i < n) (h : s.txPlW.getLsbD i = false) :
    stagedWritten s n = false :=
  Bool.eq_false_iff.2 fun hw => Bool.false_ne_true (h.symm.trans ((stagedWritten_iff s n).1 hw i hi))

/-- Inside a slice written at index 0 a byte reads as the slice has it. -/
theorem Memory.read_writeSlice_zero (m : Memory) {k : Nat} {bs : List Byte} (h : k < bs.length) :
    (m.writeSlice 0 bs).read k = bs[k] := by
  rw [Memory.read_writeSlice, dif_pos ⟨Nat.zero_le k, h⟩]
  rfl

section
variable (m : Memory) (ch t : Byte) (pl : List Byte)

/-- A written frame reads byte for byte as it was encoded. -/
theorem read_writtenFrame {k : Nat} (hk : k < pl.length + 7) :
    (m.writeSlice 0 (encodeFrame ch t pl)).read k = (encodeFrame ch t pl)[k]'(by rwa [length_encodeFrame]) :=
  Memory.read_writeSlice_zero m _

/-- The bytes between the opening delimiter and the checksum are the encoded body. -/
theorem readSlice_writtenFrame_body :
    (m.writeSlice 0 (encodeFrame ch t pl)).readSlice 1 (pl.length + 4) = frameBody ch t pl := by
  rw [← length_frameBody ch t pl]
  refine Memory.readSlice_eq fun k hk => ?_
  rw [length_frameBody] at hk
  rw [Nat.add_comm, read_writtenFrame m ch t pl (by omega)]
  exact List.getElem_append_left _

/-- The checksum byte is the crc8 of the bytes as tx_frame holds them (42_frame_tx.md R180). -/
theorem read_writtenFrame_crc :
    (m.writeSlice 0 (encodeFrame ch t pl)).read (5 + pl.length) =
      crc8 ((m.writeSlice 0 (encodeFrame ch t pl)).readSlice 1 (pl.length + 4)) := by
  rw [readSlice_writtenFrame_body, read_writtenFrame m ch t pl (by omega)]
  exact encodeFrame_crc ch t pl

theorem read_writtenFrame_last : (m.writeSlice 0 (encodeFrame ch t pl)).read (6 + pl.length) = 0x7E#8 := by
  rw [read_writtenFrame m ch t pl (by omega)]
  exact encodeFrame_last ch t pl

end

@[simp] theorem length_stagedPayload (s : State) (n : Nat) : (stagedPayload s n).length = n := Memory.length_readSlice ..

/-- A frame of the staged payload holds the staged bytes from index 5 on. -/
theorem read_writtenFrame_staged (m : Memory) (ch t : Byte) (s : State) {n i : Nat} (hi : i < n) :
    (m.writeSlice 0 (encodeFrame ch t (stagedPayload s n))).read (5 + i) = s.txPl.read i := by
  have hi' : i < (stagedPayload s n).length := by rwa [length_stagedPayload]
  rw [read_writtenFrame m ch t _ (by omega), encodeFrame_payload ch t _ hi']
  exact (Memory.getElem_readSlice s.txPl 0 n i hi').trans (by rw [Nat.zero_add])

/-- Settles O16: the accepted frame's bytes by the encoder's layout, every other answer by its equation, the words of the
op by their reserved bits. -/
theorem txStartLoadsTheFrameOrIsTurnedAway : Obligations.TxStartLoadsTheFrameOrIsTurnedAway := by
  refine ⟨fun ch ty n s hidle hn hstaged => ?_,
    fun ch ty n s => ⟨fun hbusy => exec_txStart_busy hbusy ch ty n, fun hidle hn => exec_txStart_overflow hidle hn ch ty,
      fun hidle hn ⟨i, hi, hw⟩ => ?_⟩, rfl, rfl, rfl, fun w s hlo hhi => ?_⟩
  · have hlen : (stagedPayload s n.toNat).length = n.toNat := length_stagedPayload s n.toNat
    have hread {k : Nat} (hk : k < n.toNat + 7) :=
      read_writtenFrame s.txFrame ch ty (stagedPayload s n.toNat) (k := k) (by omega)
    have hcrc := read_writtenFrame_crc s.txFrame ch ty (stagedPayload s n.toNat)
    have hlast := read_writtenFrame_last s.txFrame ch ty (stagedPayload s n.toNat)
    rw [hlen] at hcrc hlast
    refine ⟨loadFrame (encodeFrame ch ty (stagedPayload s n.toNat)) s, ?_, ?_, hread (by omega), ?_, hread (by omega),
      hread (by omega), hread (by omega), fun i hi => read_writtenFrame_staged s.txFrame ch ty s hi, hcrc, hlast,
      fun j hj => Memory.read_writeSlice_beyond s.txFrame (by simpa using hj), (txBusy_iff _).2 (by simp)⟩
    · rw [exec_txStart_idle hidle hn, if_pos ((stagedWritten_iff s n.toNat).2 hstaged)]
    · simp [loadFrame]
    · rw [loadFrame_txFrame, hread (by omega)]
      change (BitVec.ofNat 8 ((stagedPayload s n.toNat).length + 5)).toNat = _
      rw [hlen, lengthByte_toNat hn]
  · rw [exec_txStart_idle hidle hn, stagedWritten_eq_false hi hw]
    rfl
  · have hop : w.extractLsb' 28 4 = 4#4 := op_eq_of_range 4#4 hlo hhi
    refine ⟨fun hclear => ?_, fun hset => ?_⟩
    · rw [runWord_cmd32, decodeCommand_txStart_of_clear hop hclear]
    · exact runWord_of_not_legalCommand (fun hl => hset (txStart_clear_of_legalCommand hop hl)) s

end Sys2Proof.Machine
end

section
/-! TX_POP (42_frame_tx.md R186): its three answers. -/

namespace Sys2Proof.Machine

/-- The state that has sent the next byte. -/
def sendByte (s : State) : State :=
  { s with
    txIdx := s.txIdx + 1,
    events := { s.events with
      txByte := some (s.txFrame.read s.txIdx),
      txDone := s.events.txDone || decide (s.txIdx + 1 = s.txLen) } }

theorem exec_txPop_busy {s : State} (h : s.txIdx < s.txLen) (hin : s.txIdx < 257) :
    exec .txPop s = .next (sendByte s) := (if_pos ((txBusy_iff s).2 h)).trans (if_pos hin)

theorem exec_txPop_outside {s : State} (h : s.txIdx < s.txLen) (hout : 257 ≤ s.txIdx) :
    exec .txPop s = .fault .bufferIndex := (if_pos ((txBusy_iff s).2 h)).trans (if_neg (Nat.not_lt.2 hout))

theorem exec_txPop_idle {s : State} (h : ¬ s.txIdx < s.txLen) : exec .txPop s = .next s :=
  if_neg (mt (txBusy_iff s).1 h)

/-- The last byte leaves the transmitter idle. -/
theorem txBusy_sendByte_last {s : State} (h : s.txIdx + 1 = s.txLen) : txBusy (sendByte s) = false :=
  decide_eq_false (Nat.not_lt.2 h.ge)

/-- Settles O17: the busy and the idle answer by their equations; at the last byte a pop that answers a state has sent
it, as outside tx_frame there is none. -/
theorem txPopSendsTheNextByte : Obligations.TxPopSendsTheNextByte := by
  refine fun s => ⟨exec_txPop_busy, exec_txPop_idle, fun t ht hlast => ?_⟩
  have hbusy : s.txIdx < s.txLen := by omega
  obtain hin | hout := Nat.lt_or_ge s.txIdx 257
  · cases (exec_txPop_busy hbusy hin).symm.trans ht
    exact txBusy_sendByte_last hlast
  · cases (exec_txPop_outside hbusy hout).symm.trans ht

end Sys2Proof.Machine
end

section
/-! The dispatcher (43_dispatch.md R203): what a dispatch records of an unmapped code, of a frame the pins turn away, and
of a match. -/

namespace Sys2Proof.Machine

theorem dispatch_unmapped {s : State} (h : s.params.typeMap.entry s.frmType = none) :
    dispatch s = execUnknownType s.frmType s := by
  rw [dispatch, h]

theorem dispatch_mapped {s : State} {e : TypeEntry} (h : s.params.typeMap.entry s.frmType = some e) :
    dispatch s = runVariant e.variant e.pins s := by
  rw [dispatch, h]

/-- A frame that fails a check has its variant and the check's code recorded, and no sub-variant. -/
theorem runVariant_of_mismatch (v : Variant) {k : Pins} {s : State} {err : ErrCode} (h : checkPins k s = err)
    (herr : err ≠ .none) :
    runVariant v k s = .next { s with
      msgAny := true, msgVariant := v, msgErr := err, events := { s.events with msg := true } } := by
  subst h
  rw [runVariant_eq, if_neg (fun hm => herr hm.2), recordMsg_eq, if_neg herr]

/-- The state that has recorded a match of the variant `v`. -/
def recordMatch (v : Variant) (s : State) : State :=
  { s with
    msgAny := true, msgVariant := v, msgErr := .none,
    msgSub := if v = .settingsRequest then payloadSubVariant s else .generic,
    events := { s.events with msg := true } }

theorem recordMsg_of_match (v : Variant) {k : Pins} {s : State} (h : checkPins k s = .none) :
    recordMsg v k (if v = .settingsRequest then payloadSubVariant s else .generic) s = recordMatch v s := by
  rw [recordMsg_eq, if_pos h, h, recordMatch]

/-- A match is recorded, and a StatusUpdate's is then unpacked. -/
theorem runVariant_of_match (v : Variant) {k : Pins} {s : State} (h : checkPins k s = .none) :
    runVariant v k s = .next
      (if v = .statusUpdate then statusUnpack (statusPayload s) (recordMatch v s) else recordMatch v s) := by
  rw [runVariant_eq, ← recordMsg_of_match v h]
  by_cases hv : v = .statusUpdate
  · subst hv
    rw [if_pos ⟨rfl, h⟩, if_pos rfl, if_neg Variant.noConfusion]
  · rw [if_neg (fun hm => hv hm.1), if_neg hv]

/-- Settles O29: an unmapped code by its record, a mapped one by what its variant does under each answer of the checks. -/
theorem dispatchFollowsTheTypeMap : Obligations.DispatchFollowsTheTypeMap := by
  refine fun s => ⟨dispatch_eq_exec s, fun hnone => ?_, fun e he => ?_⟩
  · rw [dispatch_unmapped hnone, execUnknownType_eq]
  · rw [dispatch_mapped he]
    refine ⟨fun ⟨n, hn, hlen⟩ => ?_, fun hlen ⟨c, hc, hch⟩ => ?_, fun hlen hch => ?_, rfl⟩
    · exact runVariant_of_mismatch e.variant (checkPins_length hn hlen) (by decide)
    · exact runVariant_of_mismatch e.variant (checkPins_channel hlen hc hch) (by decide)
    · exact ⟨recordMatch e.variant s, rfl, runVariant_of_match e.variant (checkPins_none.2 ⟨hlen, hch⟩)⟩

end Sys2Proof.Machine
end

section
/-! The snapshot a status payload leaves (44_status_unpack.md R243), read byte for byte. -/

namespace Sys2Proof.Machine

@[simp] theorem length_statusPayload (s : State) : (statusPayload s).length = 31 := Memory.length_readSlice ..

theorem statusUnpack_stSnap (p : List Byte) (s : State) :
    (statusUnpack p s).stSnap = if snapshotDiffers p s then s.stSnap.writeSlice 0 p else s.stSnap := by
  rw [statusUnpack_eq]

/-- The frame's payload stands in the snapshot: written where it differs, agreed on where it does not. -/
theorem read_stSnap_statusUnpack (s : State) {i : Nat} (hi : i < 31) :
    (statusUnpack (statusPayload s) s).stSnap.read i = s.frmPayload.read i := by
  have hlen : i < (statusPayload s).length := by rwa [length_statusPayload]
  rw [statusUnpack_stSnap]
  by_cases hd : snapshotDiffers (statusPayload s) s = true
  · rw [if_pos hd, Memory.read_writeSlice_zero _ hlen]
    exact (Memory.getElem_readSlice _ _ _ _ hlen).trans (by rw [Nat.zero_add])
  · rw [if_neg hd]
    by_contra hne
    exact hd ((snapshotDiffers_iff s).2 (.inr ⟨i, hi, hne⟩))

theorem read_stSnap_statusUnpack_beyond (s : State) {i : Nat} (hi : 31 ≤ i) :
    (statusUnpack (statusPayload s) s).stSnap.read i = s.stSnap.read i := by
  rw [statusUnpack_stSnap]
  split
  · exact Memory.read_writeSlice_beyond _ (by simpa using hi)
  · rfl

/-- Settles O32: a mismatch by its record, a match by the snapshot its payload leaves in the state that has recorded
it. -/
theorem statusUpdateUnpacksAMatchedBroadcast : Obligations.StatusUpdateUnpacksAMatchedBroadcast := by
  refine fun k s => ⟨fun ⟨n, hn, hlen⟩ => ?_, fun hlen ⟨c, hc, hch⟩ => ?_, fun hlen hch => ?_⟩
  · exact runVariant_of_mismatch .statusUpdate (checkPins_length hn hlen) (by decide)
  · exact runVariant_of_mismatch .statusUpdate (checkPins_channel hlen hc hch) (by decide)
  · let u := recordMatch .statusUpdate s
    refine ⟨statusUnpack (statusPayload u) u, runVariant_of_match .statusUpdate (checkPins_none.2 ⟨hlen, hch⟩), ?_, ?_,
      fun i => read_stSnap_statusUnpack u, fun i => read_stSnap_statusUnpack_beyond u, fun hsame => ?_⟩
    · rw [statusUnpack_eq]
      rfl
    · rw [statusUnpack_stChanged]
      exact snapshotDiffers_iff u
    · rw [statusUnpack_stChanged] at hsame
      rw [statusUnpack_stSnap, hsame]
      rfl

end Sys2Proof.Machine
end

section
/-! Decoding and encoding of every port word (30_encoding.md R85 to R94, 43_dispatch.md R201 to R203). -/

namespace Sys2Proof.Laws

/-- The round trip of every operation. -/
theorem roundTrip : ∀ i : Instr, RoundTrip.Statement i
  | .nop => RoundTrip.nop
  | .crcInit => RoundTrip.crcInit
  | .crcUpdate b => RoundTrip.crcUpdate b
  | .txWrite i b => RoundTrip.txWrite i b
  | .txStart ch t n => RoundTrip.txStart ch t n
  | .cfgWrite cap pumps => RoundTrip.cfgWrite cap pumps
  | .illegalOp67 low => RoundTrip.illegalOp67 low
  | .illegalOp8F low => RoundTrip.illegalOp8F low
  | .rxScanHunt l b => RoundTrip.rxScanHunt l b
  | .rxScanResync l => RoundTrip.rxScanResync l
  | .rxScanLength l b => RoundTrip.rxScanLength l b
  | .rxScanCollect l b => RoundTrip.rxScanCollect l b
  | .rxSpan l b => RoundTrip.rxSpan l b
  | .rxIdle l b => RoundTrip.rxIdle l b
  | .txPop => RoundTrip.txPop
  | .reset => RoundTrip.reset
  | .newClientClearToSend k => RoundTrip.newClientClearToSend k
  | .channelAssignmentRequest k => RoundTrip.channelAssignmentRequest k
  | .channelAssignmentResponse k => RoundTrip.channelAssignmentResponse k
  | .channelAssignmentAcknowledgement k => RoundTrip.channelAssignmentAcknowledgement k
  | .existingClientRequest k => RoundTrip.existingClientRequest k
  | .existingClientResponse k => RoundTrip.existingClientResponse k
  | .clientClearToSend k => RoundTrip.clientClearToSend k
  | .nothingToSend k => RoundTrip.nothingToSend k
  | .toggleItem k => RoundTrip.toggleItem k
  | .statusUpdate k => RoundTrip.statusUpdate k
  | .setTemperature k => RoundTrip.setTemperature k
  | .setTime k => RoundTrip.setTime k
  | .settingsRequest k => RoundTrip.settingsRequest k
  | .filterCycles k => RoundTrip.filterCycles k
  | .informationResponse k => RoundTrip.informationResponse k
  | .preferencesResponse k => RoundTrip.preferencesResponse k
  | .configurationResponse k => RoundTrip.configurationResponse k
  | .faultLogResponse k => RoundTrip.faultLogResponse k
  | .unknownType t => RoundTrip.unknownType t

end Sys2Proof.Laws

namespace Sys2Proof.Machine

/-- The dispatcher's operations are the variants' and the one of an unmapped code. -/
theorem dispatcher_cases {i : Instr} (h : instrPart i = .dispatcher) :
    (∃ v k, i = Variant.instr v k) ∨ ∃ t, i = .unknownType t := by
  cases i <;> simp only [instrPart, reduceCtorEq] at h
  case newClientClearToSend k => exact .inl ⟨.newClientClearToSend, k, rfl⟩
  case channelAssignmentRequest k => exact .inl ⟨.channelAssignmentRequest, k, rfl⟩
  case channelAssignmentResponse k => exact .inl ⟨.channelAssignmentResponse, k, rfl⟩
  case channelAssignmentAcknowledgement k => exact .inl ⟨.channelAssignmentAcknowledgement, k, rfl⟩
  case existingClientRequest k => exact .inl ⟨.existingClientRequest, k, rfl⟩
  case existingClientResponse k => exact .inl ⟨.existingClientResponse, k, rfl⟩
  case clientClearToSend k => exact .inl ⟨.clientClearToSend, k, rfl⟩
  case nothingToSend k => exact .inl ⟨.nothingToSend, k, rfl⟩
  case toggleItem k => exact .inl ⟨.toggleItem, k, rfl⟩
  case statusUpdate k => exact .inl ⟨.statusUpdate, k, rfl⟩
  case setTemperature k => exact .inl ⟨.setTemperature, k, rfl⟩
  case setTime k => exact .inl ⟨.setTime, k, rfl⟩
  case settingsRequest k => exact .inl ⟨.settingsRequest, k, rfl⟩
  case filterCycles k => exact .inl ⟨.filterCycles, k, rfl⟩
  case informationResponse k => exact .inl ⟨.informationResponse, k, rfl⟩
  case preferencesResponse k => exact .inl ⟨.preferencesResponse, k, rfl⟩
  case configurationResponse k => exact .inl ⟨.configurationResponse, k, rfl⟩
  case faultLogResponse k => exact .inl ⟨.faultLogResponse, k, rfl⟩
  case unknownType t => exact .inr ⟨t, rfl⟩

/-- Every operation that no type code selects has a word of its own. -/
theorem encode_isSome_of_not_dispatcher {i : Instr} (h : instrPart i ≠ .dispatcher) (m : TypeMap) :
    (encode m i).isSome = true := by
  cases i <;> simp [encode, instrPart] at h ⊢

theorem encode_entry {m : TypeMap} {t : Byte} {e : TypeEntry} (h : m.entry t = some e) :
    ∃ u, encode m (e.variant.instr e.pins) = some (.msgType8 u) := by
  obtain ⟨u, hu⟩ := TypeMap.codeOf_isSome h
  exact ⟨u, by rw [encode_instr, encodeVariant, hu]; rfl⟩

/-- Settles O2: the round trip constructor by constructor; an entry's word by its code; every other operation's word by
its part. -/
theorem decodingAnEncodedOperationGivesItBack : Obligations.DecodingAnEncodedOperationGivesItBack := by
  refine ⟨fun c i w => Laws.roundTrip i c w, fun c t e he => encode_entry he, fun c i hi => ?_⟩
  by_cases hd : instrPart i = .dispatcher
  · obtain ⟨v, k, rfl⟩ | ⟨t, rfl⟩ := dispatcher_cases hd
    · exact absurd rfl (hi v k)
    · rfl
  · exact encode_isSome_of_not_dispatcher hd c.typeMap

/-! ### The other direction -/

/-- A command is selected in every context and well formed. -/
theorem selected_wf_of_isCommand {i : Instr} (h : isCommand i = true) (c : DecodeCtx) :
    i.selected c = true ∧ i.wf = true := by
  cases i <;> simp [isCommand, Instr.selected, Instr.wf] at h ⊢

/-- A receive-port word, from its wires. -/
theorem rxWord_of_fields (w : BitVec 10) : rxWord (w.getLsbD 9) (w.getLsbD 8) (w.extractLsb' 0 8) = w := by
  apply BitVec.eq_of_getLsbD_eq
  intro i hi
  rw [rxWord_getLsbD]
  obtain h | rfl | rfl : i < 8 ∨ i = 8 ∨ i = 9 := by omega
  · simp [h]
  · rfl
  · rfl

/-- The row of a receive-port word is selected and well formed, and its word is the one it was read from. -/
theorem decodeRx_spec (c : DecodeCtx) (v l : Bool) (b : Byte) :
    (decodeRx c.rxSource c.rxState (rxWord v l b)).selected c = true ∧
    (decodeRx c.rxSource c.rxState (rxWord v l b)).wf = true ∧
    encode c.typeMap (decodeRx c.rxSource c.rxState (rxWord v l b)) = some (.rxPort (rxWord v l b)) := by
  obtain ⟨src, st, m⟩ := c
  cases v with
  | false => rw [decodeRx_idle]; exact ⟨rfl, rfl, rfl⟩
  | true =>
    rw [decodeRx_byte]
    cases src with
    | span => exact ⟨rfl, rfl, rfl⟩
    | scan =>
      cases st with
      | hunt => exact ⟨rfl, rfl, rfl⟩
      | collect => exact ⟨rfl, rfl, rfl⟩
      | gotStart =>
        by_cases hb : b = Config.delim
        · simp only [decodeScan, hb]; exact ⟨rfl, rfl, rfl⟩
        · simp only [decodeScan, if_neg hb]; exact ⟨rfl, by simpa [Instr.wf] using hb, rfl⟩

/-- The row of a type code is selected and has a word, which is that code's where no entry maps it. -/
theorem decodeType_spec (c : DecodeCtx) (t : Byte) :
    (decodeType c.typeMap t).selected c = true ∧ (c.typeMap.Admissible → (decodeType c.typeMap t).wf = true) ∧
    ∃ w, encode c.typeMap (decodeType c.typeMap t) = some w := by
  unfold decodeType
  cases h : c.typeMap.entry t with
  | none => exact ⟨by simp [Instr.selected, h], fun _ => rfl, _, rfl⟩
  | some e =>
    obtain ⟨u, hu⟩ := encode_entry h
    exact ⟨selected_instr c _ _, fun ha => (wf_instr _ _).trans (ha.pinned t e h), _, hu⟩

theorem bit_cases : ∀ w : BitVec 1, w = 0#1 ∨ w = 1#1 := by decide

/-- Settles O3: by the word's format; a command and a receive-port word are rebuilt from their fields, a type code may
be another code of the same entry. -/
theorem encodingADecodedWordGivesItBack : Obligations.EncodingADecodedWordGivesItBack := by
  intro c w i h
  cases w with
  | cmd32 w =>
    obtain ⟨hsel, hwf⟩ := selected_wf_of_isCommand (decodeCommand_isCommand h) c
    exact ⟨hsel, fun _ => hwf, _, encode_decodeCommand h, h, fun _ => rfl⟩
  | rxPort w =>
    obtain rfl := Except.ok.inj h
    have hspec := decodeRx_spec c (w.getLsbD 9) (w.getLsbD 8) (w.extractLsb' 0 8)
    rw [rxWord_of_fields] at hspec
    obtain ⟨hsel, hwf, henc⟩ := hspec
    exact ⟨hsel, fun _ => hwf, _, henc, rfl, fun _ => rfl⟩
  | txPort w =>
    obtain rfl | rfl := bit_cases w
    · cases h
    · cases h; exact ⟨rfl, fun _ => rfl, _, rfl, rfl, fun _ => rfl⟩
  | rstPort w =>
    obtain rfl | rfl := bit_cases w
    · cases h
    · cases h; exact ⟨rfl, fun _ => rfl, _, rfl, rfl, fun _ => rfl⟩
  | msgType8 t =>
    obtain rfl := Except.ok.inj h
    obtain ⟨hsel, hwf, w', henc⟩ := decodeType_spec c t
    refine ⟨hsel, hwf, w', henc, ?_, fun hne => absurd rfl (hne t)⟩
    unfold decodeType at henc hsel ⊢
    cases he : c.typeMap.entry t with
    | none => simp only [he] at henc; cases henc; simp [decode, decodeType, he]
    | some e => simp only [he] at henc; exact Laws.roundTrip_variant (by rwa [encode_instr] at henc)

/-! ### The classes of command words -/

theorem decodeCommand_crcUpdate_of_clear {w : CmdWord} (hop : w.extractLsb' 28 4 = 2#4)
    (h : w &&& 0x0FFFFF00#32 = 0#32) : decodeCommand w = .ok (.crcUpdate (w.extractLsb' 0 8)) := by
  have hres : w.extractLsb' 8 20 = 0#20 := extractLsb'_eq_zero_of_and (by decide) h
  unfold decodeCommand
  rw [hop, hres]
  rfl

theorem crcUpdate_clear_of_legalCommand {w : CmdWord} (hop : w.extractLsb' 28 4 = 2#4) (h : legalCommand w) :
    w &&& 0x0FFFFF00#32 = 0#32 :=
  reserved_clear_of_legalCommand h hop (r := (0x20000000#32, 0xFFFFFF00#32)) (by simp [commandRows]) rfl rfl

/-- A word's op is that of the row it matches. -/
theorem op_of_match {w m v : CmdWord} (h : w &&& m = v) (hm : m.extractLsb' 28 4 = BitVec.allOnes 4) :
    w.extractLsb' 28 4 = v.extractLsb' 28 4 := by
  rw [← h, BitVec.extractLsb'_and, hm, BitVec.and_allOnes]

/-- A legal word decodes to a command that is not illegal: its row's. -/
theorem decodeCommand_of_legalCommand {w : CmdWord} (h : legalCommand w) :
    ∃ i, decodeCommand w = .ok i ∧ (∀ low, i ≠ .illegalOp67 low) ∧ ∀ low, i ≠ .illegalOp8F low := by
  obtain ⟨r, hr, hw⟩ := h
  have hl : legalCommand w := ⟨r, hr, hw⟩
  simp only [commandRows, List.mem_cons, List.not_mem_nil, or_false] at hr
  obtain rfl | rfl | rfl | rfl | rfl | rfl := hr
  · obtain rfl := eq_zero_of_legalCommand (op_of_match hw (by decide)) hl
    exact ⟨_, decodeCommand_nop, nofun, nofun⟩
  · obtain rfl := eq_crcInit_of_legalCommand (op_of_match hw (by decide)) hl
    exact ⟨_, decodeCommand_crcInit, nofun, nofun⟩
  · have hop := op_of_match hw (by decide)
    exact ⟨_, decodeCommand_crcUpdate_of_clear hop (crcUpdate_clear_of_legalCommand hop hl), nofun, nofun⟩
  · have hop := op_of_match hw (by decide)
    exact ⟨_, decodeCommand_txWrite_of_clear hop (txWrite_clear_of_legalCommand hop hl), nofun, nofun⟩
  · have hop := op_of_match hw (by decide)
    exact ⟨_, decodeCommand_txStart_of_clear hop (txStart_clear_of_legalCommand hop hl), nofun, nofun⟩
  · have hop := op_of_match hw (by decide)
    exact ⟨_, decodeCommand_cfgWrite_of_clear hop (cfgWrite_clear_of_legalCommand hop hl), nofun, nofun⟩

/-- The words of op 0x6 and 0x7. -/
theorem decodeCommand_illegalOp67_iff (w : CmdWord) :
    (∃ low, decodeCommand w = .ok (.illegalOp67 low)) ↔ 0x60000000 ≤ w.toNat ∧ w.toNat < 0x80000000 := by
  refine ⟨fun ⟨low, h⟩ => ?_, fun ⟨hlo, hhi⟩ => ⟨w.extractLsb' 0 29, ?_⟩⟩
  · have hw : 0b011#3 ++ low = w := by simpa [encode] using encode_decodeCommand (m := []) h
    rw [← hw, BitVec.toNat_append]
    exact ⟨Nat.le_trans (by decide) Nat.left_le_or,
      Nat.or_lt_two_pow (n := 31) (by decide) (Nat.lt_trans low.isLt (by decide))⟩
  · obtain h | h := Nat.lt_or_ge w.toNat 0x70000000
    · unfold decodeCommand; rw [op_eq_of_range 6#4 hlo h]; rfl
    · unfold decodeCommand; rw [op_eq_of_range 7#4 h hhi]; rfl

/-- The words of op 0x8 to 0xF. -/
theorem decodeCommand_illegalOp8F_iff (w : CmdWord) :
    (∃ low, decodeCommand w = .ok (.illegalOp8F low)) ↔ 0x80000000 ≤ w.toNat := by
  refine ⟨fun ⟨low, h⟩ => ?_, fun hlo => ⟨w.extractLsb' 0 31, ?_⟩⟩
  · have hw : 0b1#1 ++ low = w := by simpa [encode] using encode_decodeCommand (m := []) h
    rw [← hw, BitVec.toNat_append]
    exact Nat.le_trans (by decide) Nat.left_le_or
  · have hop : 8 ≤ (w.extractLsb' 28 4).toNat := by
      rw [BitVec.extractLsb'_toNat, Nat.shiftRight_eq_div_pow]
      have := w.isLt
      omega
    obtain ⟨n, hn⟩ := Nat.exists_eq_add_of_le' hop
    unfold decodeCommand
    rw [hn]
    rfl

/-- Settles O4: a word is legal, or reserved, or of one of the two illegal ranges, and the decoder's answer says
which. -/
theorem commandWordsAreLegalExactlyAsTheRowsSay : Obligations.CommandWordsAreLegalExactlyAsTheRowsSay := by
  intro w
  have h67 := decodeCommand_illegalOp67_iff w
  have h8F := decodeCommand_illegalOp8F_iff w
  refine ⟨⟨decodeCommand_of_legalCommand, fun ⟨i, hi, hn67, hn8F⟩ => ?_⟩, ⟨fun he => ⟨?_, fun hl => ?_⟩,
    fun ⟨hlt, hnl⟩ => ?_⟩, h67, h8F, fun he => ?_⟩
  · obtain hl | ⟨low, rfl⟩ | ⟨low, rfl⟩ := legalCommand_or_illegal hi
    · exact hl
    · exact absurd rfl (hn67 low)
    · exact absurd rfl (hn8F low)
  · by_contra hge
    obtain hlt | hge' := Nat.lt_or_ge w.toNat 0x80000000
    · obtain ⟨low, hlow⟩ := h67.2 ⟨by omega, hlt⟩
      rw [he] at hlow; cases hlow
    · obtain ⟨low, hlow⟩ := h8F.2 hge'
      rw [he] at hlow; cases hlow
  · obtain ⟨i, hi, -⟩ := decodeCommand_of_legalCommand hl
    rw [he] at hi; cases hi
  · cases hd : decodeCommand w with
    | error e => rw [decodeCommand_error hd]
    | ok i =>
      obtain hl | ⟨low, rfl⟩ | ⟨low, rfl⟩ := legalCommand_or_illegal hd
      · exact absurd hl hnl
      · have := h67.1 ⟨low, hd⟩; omega
      · have := h8F.1 ⟨low, hd⟩; omega
  · cases decodeCommand_error he

/-- Settles O1: each word is evaluated. -/
theorem writtenOutWordsDecodeToTheirOperations : Obligations.WrittenOutWordsDecodeToTheirOperations := by
  unfold Obligations.WrittenOutWordsDecodeToTheirOperations
  decide

end Sys2Proof.Machine
end

section
/-! The CRC-8 unit (40_crc8.md): the two commands, the function as polynomial division, the residue, and the register in
a run. -/

namespace Sys2Proof.Machine

theorem exec_crcUpdate (b : Byte) (s : State) :
    exec (.crcUpdate b) s = .next { s with crcReg := crcStep s.crcReg b } := rfl

/-- Settles O11: the operation by its one equation, the words of op 0x2 by their reserved bits. -/
theorem crcUpdateStepsTheRegister : Obligations.CrcUpdateStepsTheRegister := by
  refine ⟨exec_crcUpdate, fun s => by rw [exec_crcUpdate, crcStep_self], fun w s hlo hhi => ?_⟩
  have hop : w.extractLsb' 28 4 = 2#4 := op_eq_of_range 2#4 hlo hhi
  refine ⟨fun hclear => ?_, fun hset => ?_⟩
  · rw [runWord_cmd32, decodeCommand_crcUpdate_of_clear hop hclear, BitVec.setWidth_eq_extractLsb' (by decide)]
    exact exec_crcUpdate _ s
  · exact runWord_of_not_legalCommand (fun hl => hset (crcUpdate_clear_of_legalCommand hop hl)) s

/-! ### Polynomial division (40_crc8.md R120, R121) -/

/-- A sum over GF(2) of the terms whose bit of `q` is 1 is linear in `q`. -/
theorem foldl_xor_linear (f : Nat → BitVec 16) (q r : BitVec 16) (ks : List Nat) (a b : BitVec 16) :
    ks.foldl (fun acc k => if (q ^^^ r).getLsbD k then acc ^^^ f k else acc) (a ^^^ b) =
      ks.foldl (fun acc k => if q.getLsbD k then acc ^^^ f k else acc) a ^^^
        ks.foldl (fun acc k => if r.getLsbD k then acc ^^^ f k else acc) b := by
  induction ks generalizing a b with
  | nil => rfl
  | cons k ks ih =>
    simp only [List.foldl_cons, ← ih, BitVec.getLsbD_xor]
    congr 1
    cases q.getLsbD k <;> cases r.getLsbD k <;> simp only [Bool.xor_false, Bool.xor_true, Bool.not_false, Bool.not_true,
      Bool.false_eq_true, if_false, if_true]
    · ac_rfl
    · ac_rfl
    · calc a ^^^ b = a ^^^ b ^^^ (f k ^^^ f k) := by rw [BitVec.xor_self, BitVec.xor_zero]
        _ = a ^^^ f k ^^^ (b ^^^ f k) := by ac_rfl

theorem polyMul_xor (q r p : BitVec 16) : polyMul (q ^^^ r) p = polyMul q p ^^^ polyMul r p :=
  foldl_xor_linear (p <<< ·) q r _ 0#16 0#16

/-- One shift takes the polynomial off where the top bit is 1. -/
theorem crcShift_eq (x : Byte) :
    x.setWidth 16 <<< 1 = (if x.getLsbD 7 then 0x0107#16 else 0#16) ^^^ (crcShift x).setWidth 16 := by
  revert x; decide

/-- The quotient that `k` shifts of `x` take off. -/
def crcQuotient : Nat → Byte → Byte
  | 0, _ => 0#8
  | k + 1, x => (if x.getLsbD 7 then 1#8 <<< k else 0#8) ^^^ crcQuotient k (crcShift x)

/-- `k` shifts divide `x` times x^k by the polynomial. -/
theorem crcShifts_eq {k : Nat} (hk : k ≤ 8) (x : Byte) :
    x.setWidth 16 <<< k = polyMul ((crcQuotient k x).setWidth 16) 0x0107#16 ^^^ (crcShifts k x).setWidth 16 := by
  induction k generalizing x with
  | zero => simp [crcQuotient, crcShifts, polyMul]
  | succ k ih =>
    have hterm : (if x.getLsbD 7 then 0x0107#16 else 0#16) <<< k =
        polyMul ((if x.getLsbD 7 then 1#8 <<< k else 0#8).setWidth 16) 0x0107#16 := by
      have hpow : ∀ k < 8, 0x0107#16 <<< k = polyMul ((1#8 <<< k).setWidth 16) 0x0107#16 := by decide
      split
      · exact hpow k hk
      · simp [polyMul]
    calc x.setWidth 16 <<< (k + 1)
        = (x.setWidth 16 <<< 1) <<< k := by rw [← BitVec.shiftLeft_add, Nat.add_comm]
      _ = (if x.getLsbD 7 then 0x0107#16 else 0#16) <<< k ^^^ (crcShift x).setWidth 16 <<< k := by
          rw [crcShift_eq, BitVec.shiftLeft_xor_distrib]
      _ = polyMul ((crcQuotient (k + 1) x).setWidth 16) 0x0107#16 ^^^ (crcShifts (k + 1) x).setWidth 16 := by
          rw [hterm, ih (by omega), ← BitVec.xor_assoc, ← polyMul_xor, ← BitVec.setWidth_xor]
          rfl

/-- Settles O12: the quotient is the one the eight shifts take off. -/
theorem crcStepIsPolynomialDivision : Obligations.CrcStepIsPolynomialDivision :=
  fun c b => ⟨crcQuotient 8 (c ^^^ b), crcShifts_eq (Nat.le_refl 8) _⟩

/-! ### The residue (40_crc8.md R127) -/

/-- The checksum of a sequence cancels the register it leaves, but for the final XOR. -/
theorem crcStep_crc8 (bs : List Byte) : crcStep (bs.foldl crcStep 0x02#8) (crc8 bs) = 0x0E#8 := by
  rw [crcStep_eq, crc8, ← BitVec.xor_assoc, BitVec.xor_self, BitVec.zero_xor]
  decide

/-- Settles O13: the last step starts from the final XOR alone, whatever the sequence. -/
theorem checksummedSequenceLeavesTheResidue : Obligations.ChecksummedSequenceLeavesTheResidue := by
  intro bs
  have hreg : (bs ++ [crc8 bs]).foldl crcStep 0x02#8 = 0x0E#8 := by
    rw [List.foldl_append]
    exact crcStep_crc8 bs
  refine ⟨hreg, ?_⟩
  rw [crc8, hreg]
  rfl

/-! ### crc_reg in a run (10_state.md R22) -/

/-- What the host command sub-step does to crc_reg. -/
theorem runCommand_crcReg {c : CycleInput} {s t : State} (h : runCommand c s = .next t) (hr : c.rst = false) :
    t.crcReg = crcEffect s.crcReg c := by
  rw [runCommand_eq] at h
  unfold crcEffect
  rw [hr, if_neg Bool.false_ne_true]
  cases hv : c.cmdValid with
  | false => rw [hv] at h; cases h; rfl
  | true =>
    simp only [hv, if_true] at h ⊢
    cases hd : decodeCommand c.cmd with
    | error e => simp only [hd] at h; cases h; rfl
    | ok i =>
      simp only [hd] at h
      have hi := decodeCommand_isCommand hd
      cases i <;> simp only [isCommand, Bool.false_eq_true] at hi
      case txStart ch ty n =>
        obtain h' | h' | ⟨-, -, h'⟩ | ⟨-, -, h'⟩ := execTxStart_cases ch ty n s <;>
          cases h'.symm.trans h <;> rfl
      all_goals cases h; rfl

/-- The receive sub-step and the pop leave crc_reg. -/
theorem step_crcReg {s t : State} (h : step s = .next t) : t.crcReg = crcEffect s.crcReg (s.inputs.headD {}) := by
  obtain ⟨hr, h⟩ | ⟨hr, u, v, hu, hv, ht⟩ := step_cases h
  · cases h; unfold crcEffect; rw [if_pos hr]; rfl
  · have hrx : u.crcReg = s.crcReg := by rw [exec_receiver (decodeRx_part ..) hu]; rfl
    have hpop : v.crcReg = u.crcReg := by
      split at hv
      · rw [exec_txPop hv]
      · cases hv; rfl
    rw [runCommand_crcReg ht hr, hpop, hrx]

/-- A step takes its inputs off. -/
theorem step_inputs {s t : State} (h : step s = .next t) : t.inputs = s.inputs.tail := by
  obtain ⟨-, h⟩ | ⟨-, u, v, hu, hv, ht⟩ := step_cases h
  · cases h; rfl
  · rw [subSteps_frame hv ht, exec_receiver (decodeRx_part ..) hu]; rfl

theorem crcEffect_idle (r : Byte) : crcEffect r {} = r := rfl

/-- Each cycle of a run does its inputs' part. -/
theorem run_crcReg {k : Nat} {s t : State} (h : Host.Core.run Sys2Proof.core k s = .next t) :
    t.crcReg = (s.inputs.take k).foldl crcEffect s.crcReg := by
  induction k generalizing s with
  | zero => cases h; rfl
  | succ k ih =>
    obtain ⟨u, hu, hr⟩ := run_succ_eq_next.1 h
    rw [ih hr, step_inputs hu, step_crcReg hu]
    cases s.inputs with
    | nil => rw [List.tail_nil, List.take_nil, List.take_nil]; exact crcEffect_idle _
    | cons c rest => rfl

/-- `CRC_BYTES` steps the register through its bytes. -/
theorem run_crcBytes (bs : List Byte) (s : State) (rest : List CycleInput) (h : s.inputs = Script.crcBytes bs ++ rest) :
    ∃ t, Host.Core.run Sys2Proof.core bs.length s = .next t ∧ t.crcReg = bs.foldl crcStep s.crcReg ∧ t.inputs = rest := by
  induction bs generalizing s with
  | nil => exact ⟨s, rfl, rfl, h⟩
  | cons b bs ih =>
    have hs : step s = exec (.crcUpdate b) (beginCycle (Script.crcBytes bs ++ rest) s) :=
      step_cmd h (decodeCommand_crcUpdate b)
    rw [exec_crcUpdate] at hs
    obtain ⟨t, ht, hreg, hin⟩ := ih { beginCycle (Script.crcBytes bs ++ rest) s with crcReg := crcStep s.crcReg b } rfl
    exact ⟨t, (run_succ hs).trans ht, hreg, hin⟩

theorem crcOut_of_crcReg {s : State} {bs : List Byte} (h : s.crcReg = bs.foldl crcStep Config.crcInit) :
    crcOut s = crc8 bs := by
  rw [crcOut, h, crc8]

/-- Settles O14: the register by induction over the run, the checksum by induction over the bytes. -/
theorem crcRegisterFollowsItsCommandsInEveryRun : Obligations.CrcRegisterFollowsItsCommandsInEveryRun := by
  refine ⟨fun k s t => run_crcReg, fun bs s rest => ?_⟩
  have hs : step { s with inputs := Script.cmd .crcInit :: (Script.crcBytes bs ++ rest) } = exec .crcInit
      (beginCycle (Script.crcBytes bs ++ rest) s) := step_cmd rfl decodeCommand_crcInit
  rw [exec_crcInit] at hs
  obtain ⟨t, ht, hreg, hin⟩ := run_crcBytes bs { beginCycle (Script.crcBytes bs ++ rest) s with crcReg := 0x02#8 } rest rfl
  exact ⟨t, (run_succ hs).trans ht, crcOut_of_crcReg hreg, hin⟩

end Sys2Proof.Machine
end

section
/-! The receiver on a whole candidate (41_frame_rx.md): the bytes it holds so far, a span of any length, and an encoded
frame through the scanner. -/

namespace Sys2Proof.Machine

/-! ### One byte -/

theorem exec_rxScanLength_nonzero {b : Byte} (h : b ≠ 0x00#8) (l : Bool) (s : State) :
    exec (.rxScanLength l b) s =
      .next { s with rxBuf := s.rxBuf.write 1 b, rxCnt := 2, rxNeed := b, rxLastb := b, rxState := .collect } :=
  execRxScanLength_nonzero h l s

theorem exec_rxScanLength_zero (l : Bool) (s : State) :
    exec (.rxScanLength l 0x00#8) s = .next (rearm (raiseError .framingError (countCandidate
      { s with rxBuf := s.rxBuf.write 1 0x00#8, rxCnt := 2, rxNeed := 0x00#8, rxLastb := 0x00#8 }))) :=
  execRxScanLength_zero l s

/-- Settles O22: a zero byte by the completion it causes, any other by the collection it starts. -/
theorem lengthByteStartsTheCollection : Obligations.LengthByteStartsTheCollection := by
  intro l b s
  have hother : ∀ j : Nat, j ≠ 1 → (s.rxBuf.write 1 b).read j = s.rxBuf.read j :=
    fun _ hj => Memory.read_write_other s.rxBuf hj b
  by_cases hb : b = 0x00#8
  · subst hb
    exact ⟨_, exec_rxScanLength_zero l s, Memory.read_write_same s.rxBuf 1 0x00#8, hother, fun h => absurd rfl h,
      fun _ => rfl⟩
  · exact ⟨_, exec_rxScanLength_nonzero hb l s, Memory.read_write_same s.rxBuf 1 b, hother, fun _ => rfl,
      fun h => absurd h hb⟩

theorem exec_rxScanCollect_more {s : State} (h : s.rxCnt < 257) (hn : s.rxNeed ≠ 1#8) (l : Bool) (b : Byte) :
    exec (.rxScanCollect l b) s = .next { s with rxBuf := s.rxBuf.write s.rxCnt b, rxCnt := s.rxCnt + 1,
                                                 rxNeed := s.rxNeed - 1#8, rxLastb := b } :=
  execRxScanCollect_more h hn l b

theorem exec_rxScanCollect_last {s : State} (h : s.rxCnt < 257) (hn : s.rxNeed = 1#8) (l : Bool) (b : Byte) :
    exec (.rxScanCollect l b) s = complete { s with rxBuf := s.rxBuf.write s.rxCnt b, rxCnt := s.rxCnt + 1,
                                                    rxNeed := 0#8, rxLastb := b } :=
  execRxScanCollect_last h hn l b

theorem exec_rxScanCollect_outside {s : State} (h : 257 ≤ s.rxCnt) (l : Bool) (b : Byte) :
    exec (.rxScanCollect l b) s = .fault .bufferIndex := execRxScanCollect_outside (Nat.not_lt.2 h) l b

/-- Settles O23: by whether the byte is the last one needed. -/
theorem collectedByteIsStoredAndCounted : Obligations.CollectedByteIsStoredAndCounted := by
  intro l b s hin
  have hsame := Memory.read_write_same s.rxBuf s.rxCnt b
  have hother : ∀ j : Nat, j ≠ s.rxCnt → (s.rxBuf.write s.rxCnt b).read j = s.rxBuf.read j :=
    fun _ hj => Memory.read_write_other s.rxBuf hj b
  exact ⟨fun hmore => ⟨_, exec_rxScanCollect_more hin hmore l b, rfl, hsame, hother⟩,
    fun hlast => ⟨_, rfl, hsame, hother, exec_rxScanCollect_last hin hlast l b⟩⟩

/-! ### The bytes of the candidate so far -/

/-- The receiver holds the candidate `bs`: its count, saturated, its first 257 bytes, and its last byte. -/
structure HoldsCandidate (bs : List Byte) (s : State) : Prop where
  cnt : s.rxCnt = min bs.length 258
  bytes : ∀ i < 257, ∀ b ∈ bs[i]?, s.rxBuf.read i = b
  last : ∀ b ∈ bs.getLast?, s.rxLastb = b

/-- Before its first byte a candidate is empty. -/
theorem holdsCandidate_nil {s : State} (h : s.rxCnt = 0) : HoldsCandidate [] s := ⟨h, nofun, nofun⟩

/-- A byte stored at the candidate's end extends what the buffer holds of it. -/
theorem read_write_append {bs : List Byte} {m : Memory} (h : ∀ i < 257, ∀ b ∈ bs[i]?, m.read i = b) (b : Byte) :
    ∀ i < 257, ∀ c ∈ (bs ++ [b])[i]?, (m.write bs.length b).read i = c := by
  intro i hi c hc
  rw [List.getElem?_append] at hc
  split at hc
  · rw [Memory.read_write_other m (by omega)]
    exact h i hi c hc
  · have hlen : i - bs.length < [b].length := (List.getElem?_eq_some_iff.1 hc).1
    obtain rfl : i = bs.length := by simp at hlen; omega
    rw [Memory.read_write_same]
    simpa using hc

theorem HoldsCandidate.beginCycle {bs : List Byte} {s : State} (h : HoldsCandidate bs s) (r : List CycleInput) :
    HoldsCandidate bs (beginCycle r s) := ⟨h.cnt, h.bytes, h.last⟩

/-- A span's byte extends the candidate held. -/
theorem HoldsCandidate.takeSpanByte {bs : List Byte} {s : State} (h : HoldsCandidate bs s) (b : Byte) :
    HoldsCandidate (bs ++ [b]) (takeSpanByte b s) := by
  have hcnt := h.cnt
  refine ⟨?_, ?_, by simp [Machine.takeSpanByte]⟩
  · change min (s.rxCnt + 1) 258 = _
    rw [List.length_append, List.length_singleton]
    omega
  · obtain hlt | hge := Nat.lt_or_ge s.rxCnt 257
    · rw [takeSpanByte_rxBuf_inside hlt, show s.rxCnt = bs.length by omega]
      exact read_write_append h.bytes b
    · rw [takeSpanByte_rxBuf_full hge]
      intro i hi c hc
      rw [List.getElem?_append_left (by omega)] at hc
      exact h.bytes i hi c hc

/-- The checker's verdict on a candidate held is that of `decode` on its bytes. -/
theorem HoldsCandidate.frameCheck {bs : List Byte} {s : State} (h : HoldsCandidate bs s) (hne : bs ≠ []) :
    frameCheck s.rxCnt s.rxBuf s.rxLastb = decodeSpan bs := by
  rw [h.cnt]
  refine frameCheck_eq_decodeSpan hne (fun i hi hlt => ?_) (h.last _ (List.getLast?_eq_some_getLast hne))
  exact h.bytes i hlt _ (List.getElem?_eq_getElem hi)

theorem FrameResult.err_eq_none {r : FrameResult} (h : r.err = .none) : ∃ f, r = .ok f := by
  cases r with
  | ok f => exact ⟨f, rfl⟩
  | _ => cases h

/-- A good candidate's completion has the frame in its result registers. -/
theorem complete_good {u : State} {f : GoodFrame} (h : Machine.frameCheck u.rxCnt u.rxBuf u.rxLastb = .ok f) :
    ∃ t, complete u = .next t ∧ t.inputs = u.inputs ∧ t.rxState = .hunt ∧ t.rxCnt = 0 ∧ t.frmAny = true ∧
      t.frmSeq = u.frmSeq + 1#8 ∧ t.frmErr = .none ∧ t.frmCnt = u.rxCnt ∧ t.events.frame = true ∧ t.events.msg = true ∧
      t.frmCh = f.ch ∧ t.frmFlag = f.flag ∧ t.frmType = f.type ∧ goodPayload t = f.payload ∧
      t.frmCrcRx = f.crc ∧ t.frmCrcCalc = f.crc := by
  obtain ⟨t, ht, hframe, ⟨-, hbad, -⟩ | ⟨herr, g, hg, hch, hflag, hty, hlen, hpl, hrx, hcalc, -, hmsg, -⟩⟩ :=
    complete_spec u
  · exact absurd h (hbad f)
  · obtain rfl : g = f := FrameResult.ok.inj (hg.symm.trans h)
    have hpay : goodPayload t = g.payload := by rw [goodPayload, hlen, hpl, Memory.readSlice_writeSlice]
    refine ⟨t, ht, ?_, ?_, ?_, ?_, ?_, herr, ?_, ?_, hmsg, hch, hflag, hty, hpay, hrx, hcalc⟩ <;> rw [hframe]

/-! ### A span (41_frame_rx.md R151, R157) -/

theorem step_span {s : State} {l : Bool} {b : Byte} {rest : List CycleInput} (hsrc : s.params.rxSource = .span)
    (h : s.inputs = { rxValid := true, rxLast := l, rxData := b } :: rest) :
    step s = exec (.rxSpan l b) (beginCycle rest s) := by
  rw [step_rx h, hsrc]

/-- Presenting the rest of a span completes the whole candidate. -/
theorem run_span {bs : List Byte} (hne : bs ≠ []) {pre : List Byte} {s : State} {rest : List CycleInput}
    (hsrc : s.params.rxSource = .span) (hpre : HoldsCandidate pre s) (hin : s.inputs = Script.span bs ++ rest) :
    ∃ u, Host.Core.run Sys2Proof.core bs.length s = complete u ∧ HoldsCandidate (pre ++ bs) u ∧
      u = { s with rxBuf := u.rxBuf, rxCnt := u.rxCnt, rxLastb := u.rxLastb, inputs := rest, events := {} } := by
  induction bs generalizing pre s with
  | nil => exact absurd rfl hne
  | cons b bs ih =>
    cases bs with
    | nil =>
      have hstep := step_span hsrc (l := true) (rest := rest) hin
      rw [exec_rxSpan_marked] at hstep
      obtain ⟨t, ht⟩ := complete_next (takeSpanByte b (beginCycle rest s))
      rw [ht] at hstep
      exact ⟨_, (run_succ hstep).trans ht.symm, (hpre.beginCycle rest).takeSpanByte b, rfl⟩
    | cons b' bs =>
      have hstep := step_span hsrc (l := false) (rest := Script.span (b' :: bs) ++ rest) hin
      rw [exec_rxSpan_unmarked] at hstep
      obtain ⟨u, hrun, hu, hframe⟩ := ih (List.cons_ne_nil _ _) (pre := pre ++ [b])
        (s := takeSpanByte b (beginCycle (Script.span (b' :: bs) ++ rest) s)) hsrc
        ((hpre.beginCycle _).takeSpanByte b) rfl
      exact ⟨u, (run_succ hstep).trans hrun, by simpa using hu, hframe⟩

/-- Settles O26: the span's run is the completion of the candidate it holds, whose verdict is `decode`'s. -/
theorem spanGivesTheVerdictOfDecode : Obligations.SpanGivesTheVerdictOfDecode := by
  intro bs s rest hne hsrc hcnt hin
  obtain ⟨u, hrun, hu, hframe⟩ := run_span hne hsrc (holdsCandidate_nil hcnt) hin
  rw [List.nil_append] at hu
  have hcheck := hu.frameCheck hne
  have hucnt : u.rxCnt = min bs.length 258 := hu.cnt
  by_cases hr : (decodeSpan bs).err = .none
  · obtain ⟨f, hf⟩ := FrameResult.err_eq_none hr
    obtain ⟨t, ht, hti, hst, hc0, hany, hseq, herr, hcntt, hev, -, hch, hflag, hty, hpl, hrx, hcalc⟩ :=
      complete_good (hcheck.trans hf)
    refine ⟨t, hrun.trans ht, ?_, herr.trans hr.symm, hcntt.trans hucnt, ?_, hany, hc0, hst, hev, fun g hg => ?_,
      fun _ _ hg => ?_, fun h => absurd hr h⟩
    · rw [hti, hframe]
    · rw [hseq, hframe]
    · obtain rfl := FrameResult.ok.inj (hf.symm.trans hg)
      exact ⟨hch, hflag, hty, hpl, hrx, hcalc⟩
    · rw [hf] at hg; cases hg
  · obtain ⟨hfail, -⟩ := completionRecordsAndDispatches
    have ht := hfail u _ hcheck hr
    rw [hframe] at ht hrun
    refine ⟨_, hrun.trans ht, rfl, rfl, hucnt, rfl, rfl, rfl, rfl, rfl, fun f hf => absurd (by rw [hf]; rfl) hr,
      fun _ _ hc => by simp [hc], fun _ => ⟨rfl, rfl, rfl, rfl, rfl, rfl, rfl, rfl, rfl, rfl, rfl, rfl⟩⟩

/-! ### An encoded frame (41_frame_rx.md R158) -/

/-- `decode` of an encoded frame. -/
theorem decodeSpan_encodeFrame (ch ty : Byte) {pl : List Byte} (h : pl.length ≤ 250) :
    decodeSpan (encodeFrame ch ty pl) = .ok ⟨ch, flagOf ch, ty, pl, crc8 (frameBody ch ty pl)⟩ := by
  have hlen := length_encodeFrame ch ty pl
  have hlast : (encodeFrame ch ty pl).getLast? = some 0x7E#8 := by
    rw [encodeFrame_eq, List.getLast?_append]; rfl
  have hlenByte : ((encodeFrame ch ty pl).getD 1 0#8).toNat = (encodeFrame ch ty pl).length - 2 := by
    rw [hlen]; exact lengthByte_toNat h
  have hcrc : (encodeFrame ch ty pl).getD ((encodeFrame ch ty pl).length - 2) 0#8 = crc8 (frameBody ch ty pl) := by
    rw [hlen, show pl.length + 7 - 2 = 5 + pl.length by omega, ← encodeFrame_crc]
    exact List.getD_eq_getElem _ _ _
  have hbody : ((encodeFrame ch ty pl).drop 1).take ((encodeFrame ch ty pl).length - 3) = frameBody ch ty pl := by
    rw [hlen]; exact encodeFrame_body ch ty pl
  have hpl : ((encodeFrame ch ty pl).drop 5).take ((encodeFrame ch ty pl).length - 7) = pl := by
    rw [hlen, Nat.add_sub_cancel, encodeFrame_eq]
    exact List.take_left
  unfold decodeSpan
  rw [if_neg (by rw [hlen, hlast]; simp [encodeFrame]), if_neg (not_not.2 hlenByte)]
  dsimp only
  rw [hcrc, hbody, if_neg (not_not.2 rfl), hpl]
  rfl

/-- Settles O27: the frame passes every check of `decode`, and its fields are where the encoder put them. -/
theorem decodingAnEncodedFrameGivesItsFields : Obligations.DecodingAnEncodedFrameGivesItsFields :=
  fun ch ty pl h => ⟨length_encodeFrame ch ty pl, crc8 (frameBody ch ty pl), decodeSpan_encodeFrame ch ty h⟩

/-! ### A frame through the scanner (41_frame_rx.md R144 to R147) -/

theorem step_scan {s : State} {b : Byte} {rest : List CycleInput} (hsrc : s.params.rxSource = .scan)
    (h : s.inputs = Script.rx b :: rest) : step s = exec (decodeScan s.rxState false b) (beginCycle rest s) := by
  rw [step_rx (l := false) h, hsrc]

/-- Collecting the bytes that are still needed completes the whole candidate. -/
theorem run_collect {bs : List Byte} (hne : bs ≠ []) {pre : List Byte} {s : State} {rest : List CycleInput}
    (hsrc : s.params.rxSource = .scan) (hst : s.rxState = .collect) (hpre : HoldsCandidate pre s)
    (hlen : pre.length + bs.length ≤ 257) (hneed : s.rxNeed.toNat = bs.length)
    (hin : s.inputs = Script.rxs bs ++ rest) :
    ∃ u, Host.Core.run Sys2Proof.core bs.length s = complete u ∧ HoldsCandidate (pre ++ bs) u ∧
      u = { s with rxBuf := u.rxBuf, rxCnt := u.rxCnt, rxNeed := 0#8, rxLastb := u.rxLastb, inputs := rest,
                   events := {} } := by
  induction bs generalizing pre s with
  | nil => exact absurd rfl hne
  | cons b bs ih =>
    rw [List.length_cons] at hlen hneed
    have hstep := step_scan hsrc (rest := Script.rxs bs ++ rest) hin
    rw [hst] at hstep
    have hcnt : s.rxCnt = pre.length := by have := hpre.cnt; omega
    have hroom : s.rxCnt < 257 := by omega
    have htaken : ∀ t : State, t.rxCnt = s.rxCnt + 1 → t.rxBuf = s.rxBuf.write s.rxCnt b → t.rxLastb = b →
        HoldsCandidate (pre ++ [b]) t := fun t h₁ h₂ h₃ =>
      ⟨by rw [h₁, List.length_append, List.length_singleton]; omega,
        by rw [h₂, hcnt]; exact read_write_append hpre.bytes b, by simp [h₃]⟩
    cases bs with
    | nil =>
      have hlast : s.rxNeed = 1#8 := BitVec.eq_of_toNat_eq hneed
      have hdone := hstep.trans (exec_rxScanCollect_last (s := beginCycle rest s) hroom hlast false b)
      obtain ⟨t, ht⟩ := complete_next { beginCycle rest s with
        rxBuf := s.rxBuf.write s.rxCnt b, rxCnt := s.rxCnt + 1, rxNeed := 0#8, rxLastb := b }
      exact ⟨_, (run_succ (hdone.trans ht)).trans ht.symm, htaken _ rfl rfl rfl, rfl⟩
    | cons b' bs =>
      rw [List.length_cons] at hlen hneed
      have hmore : s.rxNeed ≠ 1#8 := fun h => by rw [h] at hneed; simp at hneed
      have hnext := hstep.trans (exec_rxScanCollect_more (s := beginCycle (Script.rxs (b' :: bs) ++ rest) s)
        hroom hmore false b)
      obtain ⟨u, hrun, hu, hframe⟩ := ih (List.cons_ne_nil _ _) (pre := pre ++ [b])
        (s := { beginCycle (Script.rxs (b' :: bs) ++ rest) s with
          rxBuf := s.rxBuf.write s.rxCnt b, rxCnt := s.rxCnt + 1, rxNeed := s.rxNeed - 1#8, rxLastb := b })
        hsrc hst (htaken _ rfl rfl rfl) (by simp; omega) (by simp only [List.length_cons]; bv_omega) rfl
      exact ⟨u, (run_succ hnext).trans hrun, by simpa using hu, hframe⟩

/-- A delimiter in HUNT or in GOT_START leaves the receiver in GOT_START with that delimiter. -/
theorem step_opening {s : State} {rest : List CycleInput} (hsrc : s.params.rxSource = .scan)
    (hst : s.rxState = .hunt ∨ (s.rxState = .gotStart ∧ s.rxCnt = 1 ∧ s.rxBuf.read 0 = 0x7E#8))
    (hin : s.inputs = Script.rx 0x7E#8 :: rest) :
    ∃ t, step s = .next t ∧ t.rxBuf.read 0 = 0x7E#8 ∧
      t = { s with rxState := .gotStart, rxBuf := t.rxBuf, rxCnt := 1, inputs := rest, events := {} } := by
  rw [step_scan hsrc hin]
  obtain hst | ⟨hst, hcnt, hread⟩ := hst
  · rw [hst]
    exact ⟨_, execRxScanHunt_delim false _, Memory.read_write_same s.rxBuf 0 Config.delim, rfl⟩
  · rw [hst]
    exact ⟨_, exec_rxScanResync false _, hread, by rw [← hst, ← hcnt]; rfl⟩

/-- The length byte after the opening delimiter starts the collection of that many bytes. -/
theorem step_length {s : State} {b : Byte} {rest : List CycleInput} (hsrc : s.params.rxSource = .scan)
    (hst : s.rxState = .gotStart) (hread : s.rxBuf.read 0 = 0x7E#8) (hb : b ≠ 0x7E#8) (h0 : b ≠ 0x00#8)
    (hin : s.inputs = Script.rx b :: rest) :
    ∃ t, step s = .next t ∧ HoldsCandidate [0x7E#8, b] t ∧
      t = { s with rxState := .collect, rxBuf := t.rxBuf, rxCnt := 2, rxNeed := b, rxLastb := b, inputs := rest,
                   events := {} } := by
  rw [step_scan hsrc hin, hst]
  simp only [decodeScan, if_neg hb]
  refine ⟨_, exec_rxScanLength_nonzero h0 false _, ⟨rfl, fun i _ c hc => ?_, by simp⟩, rfl⟩
  match i, hc with
  | 0, hc => rw [Memory.read_write_other _ (by decide)]; exact hread.trans (Option.some.inj hc)
  | 1, hc => rw [Memory.read_write_same]; exact Option.some.inj hc

/-- What follows the length byte of an encoded frame. -/
def frameTail (ch ty : Byte) (pl : List Byte) : List Byte :=
  ch :: flagOf ch :: ty :: pl ++ [crc8 (frameBody ch ty pl), 0x7E#8]

theorem encodeFrame_eq_frameTail (ch ty : Byte) (pl : List Byte) :
    encodeFrame ch ty pl = 0x7E#8 :: BitVec.ofNat 8 (pl.length + 5) :: frameTail ch ty pl := rfl

@[simp] theorem length_frameTail (ch ty : Byte) (pl : List Byte) : (frameTail ch ty pl).length = pl.length + 5 := by
  simp [frameTail]

/-- Settles O28: the opening delimiter, the length byte and the rest leave the whole frame as the candidate completed,
and `decode` gives its fields. -/
theorem scannerReceivesAnEncodedFrameWhole : Obligations.ScannerReceivesAnEncodedFrameWhole := by
  intro ch ty pl s rest hlen hne hsrc hst hin
  have hL := lengthByte_toNat hlen
  rw [encodeFrame_eq_frameTail] at hin
  obtain ⟨s₁, hs₁, hread, hf₁⟩ := step_opening hsrc hst
    (rest := Script.rx (BitVec.ofNat 8 (pl.length + 5)) :: (Script.rxs (frameTail ch ty pl) ++ rest)) hin
  obtain ⟨s₂, hs₂, hold₂, hf₂⟩ := step_length (s := s₁) (b := BitVec.ofNat 8 (pl.length + 5))
    (rest := Script.rxs (frameTail ch ty pl) ++ rest) (by rw [hf₁]; exact hsrc) (by rw [hf₁]) hread
    (fun h => hne (by rw [h] at hL; simp at hL; omega)) (fun h => by rw [h] at hL; simp at hL) (by rw [hf₁])
  obtain ⟨u, hrun, hu, hframe⟩ := run_collect (bs := frameTail ch ty pl) (s := s₂) (rest := rest) (List.cons_ne_nil _ _)
    (by rw [hf₂, hf₁]; exact hsrc) (by rw [hf₂]) hold₂ (by simp; omega)
    (by rw [hf₂, length_frameTail]; exact hL) (by rw [hf₂])
  have hcand : HoldsCandidate (encodeFrame ch ty pl) u := hu
  have hcheck := (hcand.frameCheck (List.cons_ne_nil _ _)).trans (decodeSpan_encodeFrame ch ty hlen)
  obtain ⟨t, ht, hti, hstt, hc0, -, hseq, herr, hcnt, hev, hmsg, hch, hflag, hty, hpl, -⟩ := complete_good hcheck
  refine ⟨t, ?_, ?_, herr, ?_, ?_, hch, hflag, hty, hpl, hstt, hc0, hev, hmsg⟩
  · rw [length_frameTail] at hrun
    exact (run_succ hs₁).trans ((run_succ hs₂).trans (hrun.trans ht))
  · rw [hti, hframe]
  · rw [hcnt, hcand.cnt, length_encodeFrame]; omega
  · rw [hseq, hframe, hf₂, hf₁]

end Sys2Proof.Machine
end

section
/-! The receive state after a received byte (20_memory.md R66, 41_frame_rx.md R144 to R151). -/

namespace Sys2Proof.Machine

theorem SameReceiveState.refl (s : State) : SameReceiveState s s := by constructor <;> rfl

theorem SameReceiveState.symm {s t : State} (h : SameReceiveState s t) : SameReceiveState t s := by
  cases h; constructor <;> symm <;> assumption

theorem SameReceiveState.trans {s t u : State} (h : SameReceiveState s t) (h' : SameReceiveState t u) :
    SameReceiveState s u := by
  cases h; cases h'; constructor <;> apply Eq.trans <;> assumption

theorem sameReceiveState_beginCycle (r : List CycleInput) (s : State) : SameReceiveState s (beginCycle r s) := by
  constructor <;> rfl

/-- A completion counts its candidate, so the receive state is another. -/
theorem not_sameReceiveState_of_complete {s u t : State} (h : complete u = .next t) (hseq : u.frmSeq = s.frmSeq) :
    ¬ SameReceiveState s t := by
  intro hsame
  obtain ⟨t', ht', hframe, -⟩ := complete_spec u
  obtain rfl : t' = t := Host.Outcome.next.inj (ht'.symm.trans h)
  have hadv : t'.frmSeq = s.frmSeq + 1#8 := by rw [hframe, ← hseq]
  have := hsame.frmSeq
  bv_omega

/-- A received byte in SCAN mode: only a byte thrown away in HUNT and the resynchronisation leave the receive state. -/
theorem sameReceiveState_scan {s t : State} {l : Bool} {b : Byte} (h : exec (decodeScan s.rxState l b) s = .next t) :
    SameReceiveState s t ↔ (s.rxState = .hunt ∧ b ≠ 0x7E#8) ∨ (s.rxState = .gotStart ∧ b = 0x7E#8) := by
  cases hst : s.rxState with
  | hunt =>
    rw [hst] at h
    by_cases hb : b = 0x7E#8
    · subst hb
      cases (execRxScanHunt_delim l s).symm.trans h
      exact ⟨fun hsame => absurd (hsame.rxState.trans hst) nofun, by simp⟩
    · cases (execRxScanHunt_other hb l s).symm.trans h
      exact ⟨fun _ => .inl ⟨rfl, hb⟩, fun _ => .refl s⟩
  | gotStart =>
    rw [hst, decodeScan] at h
    by_cases hb : b = 0x7E#8
    · rw [if_pos hb] at h
      cases h
      exact ⟨fun _ => .inr ⟨rfl, hb⟩, fun _ => .refl s⟩
    · rw [if_neg hb] at h
      refine ⟨fun hsame => ?_, by simp [hb]⟩
      by_cases h0 : b = 0x00#8
      · subst h0
        exact absurd hsame (not_sameReceiveState_of_complete ((execRxScanLength_complete l s).symm.trans h) rfl)
      · cases (exec_rxScanLength_nonzero h0 l s).symm.trans h
        exact absurd (hsame.rxState.trans hst) nofun
  | collect =>
    rw [hst] at h
    refine ⟨fun hsame => ?_, by simp⟩
    obtain hin | hout := Nat.lt_or_ge s.rxCnt 257
    · by_cases hn : s.rxNeed = 1#8
      · exact absurd hsame (not_sameReceiveState_of_complete ((exec_rxScanCollect_last hin hn l b).symm.trans h) rfl)
      · cases (exec_rxScanCollect_more hin hn l b).symm.trans h
        exact absurd hsame.rxCnt (Nat.succ_ne_self _)
    · cases (exec_rxScanCollect_outside hout l b).symm.trans h

/-- A received byte in SPAN mode: only an unmarked repetition past the saturated count leaves the receive state. -/
theorem sameReceiveState_span {s t : State} {l : Bool} {b : Byte} (h : exec (.rxSpan l b) s = .next t) :
    SameReceiveState s t ↔ l = false ∧ s.rxCnt = 258 ∧ s.rxLastb = b := by
  cases l with
  | true => exact ⟨fun hsame => absurd hsame (not_sameReceiveState_of_complete h rfl), nofun⟩
  | false =>
    cases (exec_rxSpan_unmarked b s).symm.trans h
    refine ⟨fun hsame => ⟨rfl, ?_, hsame.rxLastb.symm⟩, fun ⟨_, hcnt, hlast⟩ => ?_⟩
    · have hcnt : min (s.rxCnt + 1) 258 = s.rxCnt := hsame.rxCnt
      omega
    · have hsat : min (s.rxCnt + 1) 258 = s.rxCnt := by omega
      exact { SameReceiveState.refl s with
        rxCnt := hsat, rxBuf := takeSpanByte_rxBuf_full (by omega) b, rxLastb := hlast.symm }

/-- The pop and the host command leave the receive state. -/
theorem sameReceiveState_subSteps {c : CycleInput} {u v t : State}
    (hv : (if c.txReady then exec .txPop u else .next u) = .next v) (ht : runCommand c v = .next t) :
    SameReceiveState u t := by
  rw [subSteps_frame hv ht]
  constructor <;> rfl

/-- Settles O52: what the cycle leaves of the receive state is what its receive operation leaves, by P_RX_SOURCE. -/
theorem receivedBytesChangeReceiveState : Obligations.ReceivedBytesChangeReceiveState := by
  intro s t c rest hin hrst hvalid h
  refine ⟨by rw [step_inputs h, hin]; rfl, ?_⟩
  obtain ⟨hr, -⟩ | ⟨-, u, v, hu, hv, ht⟩ := step_cases h
  · rw [hin] at hr
    exact absurd (hrst.symm.trans hr) Bool.false_ne_true
  · rw [hin, List.headD_cons] at hv ht
    rw [hin, List.headD_cons, hvalid, decodeRx_byte] at hu
    have hbegin := sameReceiveState_beginCycle rest s
    have hsub := sameReceiveState_subSteps hv ht
    have hsame : SameReceiveState s t ↔ SameReceiveState (beginCycle rest s) u :=
      ⟨fun h => hbegin.symm.trans (h.trans hsub.symm), fun h => hbegin.trans (h.trans hsub)⟩
    rw [hsame]
    cases hsrc : s.params.rxSource with
    | scan =>
      rw [hsrc] at hu
      rw [sameReceiveState_scan (s := beginCycle rest s) hu]
      simp
    | span =>
      rw [hsrc] at hu
      rw [sameReceiveState_span (s := beginCycle rest s) hu]
      simp

end Sys2Proof.Machine
end

section
/-! The dispatcher's variants (43_dispatch.md R203 to R222) and the default P_TYPE_MAP (R201, R202). -/

namespace Sys2Proof.Machine

/-- A match of a plain variant is recorded as the generic sub-variant. -/
theorem runVariant_of_match_plain {v : Variant} (hstatus : v ≠ .statusUpdate) (hsettings : v ≠ .settingsRequest)
    {k : Pins} {s : State} (h : checkPins k s = .none) :
    runVariant v k s = .next { s with
      msgAny := true, msgVariant := v, msgErr := .none, msgSub := .generic, events := { s.events with msg := true } } := by
  rw [runVariant_of_match v h, if_neg hstatus, recordMatch, if_neg hsettings]

/-- Settles O30: the sixteen are plain variants, and a plain variant's three answers are those of its checks. -/
theorem plainVariantsRecordTheirDispatch : Obligations.PlainVariantsRecordTheirDispatch := by
  intro k s p hp
  have hplain : p.1 = p.2.instr k ∧ p.2 ≠ .statusUpdate ∧ p.2 ≠ .settingsRequest := by
    fin_cases hp <;> exact ⟨rfl, Variant.noConfusion, Variant.noConfusion⟩
  obtain ⟨hi, hstatus, hsettings⟩ := hplain
  rw [hi, exec_instr]
  exact ⟨fun ⟨n, hn, hlen⟩ => runVariant_of_mismatch p.2 (checkPins_length hn hlen) ErrCode.noConfusion,
    fun hlen ⟨c, hc, hch⟩ => runVariant_of_mismatch p.2 (checkPins_channel hlen hc hch) ErrCode.noConfusion,
    fun hlen hch => runVariant_of_match_plain hstatus hsettings (checkPins_none.2 ⟨hlen, hch⟩)⟩

/-- What P_SUBCODE_MAP gives a code: its entry, or the generic request. -/
theorem subVariant_spec (m : SubcodeMap) (c₀ c₁ c₂ : Byte) :
    (∀ b, m.lookup (c₀, c₁, c₂) = some b → subVariant m c₀ c₁ c₂ = b) ∧
    (m.lookup (c₀, c₁, c₂) = none → subVariant m c₀ c₁ c₂ = .generic) :=
  ⟨fun b h => by rw [subVariant, h]; rfl, fun h => by rw [subVariant, h]; rfl⟩

/-- Settles O31: the three answers of the checks; the sub-variant of a match is the map's. -/
theorem settingsRequestRecordsItsSubVariant : Obligations.SettingsRequestRecordsItsSubVariant := by
  refine fun k s => ⟨fun ⟨n, hn, hlen⟩ => ?_, fun hlen ⟨c, hc, hch⟩ => ?_, fun hlen hch => ⟨payloadSubVariant s, ?_, ?_⟩⟩
  · exact runVariant_of_mismatch .settingsRequest (checkPins_length hn hlen) ErrCode.noConfusion
  · exact runVariant_of_mismatch .settingsRequest (checkPins_channel hlen hc hch) ErrCode.noConfusion
  · exact runVariant_of_match .settingsRequest (checkPins_none.2 ⟨hlen, hch⟩)
  · rintro code rfl
    obtain ⟨hlisted, hunlisted⟩ := subVariant_spec s.params.subcodeMap (s.frmPayload.read 0) (s.frmPayload.read 1)
      (s.frmPayload.read 2)
    exact ⟨hlisted, hunlisted⟩

theorem instr_ne_unknownType (v : Variant) (k : Pins) (t : Byte) : v.instr k ≠ .unknownType t := by
  cases v <;> exact Instr.noConfusion

/-- Settles O33: the operation by its one equation, the decoder by the map's entry. -/
theorem unknownTypeCodeIsRecorded : Obligations.UnknownTypeCodeIsRecorded := by
  refine fun ty s => ⟨execUnknownType_eq ty s, fun m u => ?_⟩
  unfold decodeType
  cases m.entry u with
  | none => simp
  | some e => simp [instr_ne_unknownType]

/-- An entry is listed under its code. -/
theorem TypeMap.mem_of_entry {m : TypeMap} {t : Byte} {e : TypeEntry} (h : m.entry t = some e) : (t, e) ∈ m := by
  obtain ⟨l₁, l₂, rfl, -⟩ := List.lookup_eq_some_iff.1 h
  simp

/-- Settles O34: each constraint is checked on the listed entries. -/
theorem defaultTypeMapIsAdmissible : Obligations.DefaultTypeMapIsAdmissible := by
  have hpinned : ∀ p ∈ defaultTypeMap, p.2.pins.wfFor p.2.variant = true := by decide
  have hstatus : ∀ p ∈ defaultTypeMap, p.2.variant = .statusUpdate → p.1 = 0x13#8 := by decide
  exact {
    pinned := fun t e h => hpinned (t, e) (TypeMap.mem_of_entry h)
    oneStatus := ⟨0x13#8, ⟨_, rfl, rfl⟩, fun u e h => hstatus (u, e) (TypeMap.mem_of_entry h)⟩
    information := ⟨_, rfl, rfl⟩ }

end Sys2Proof.Machine
end

section
/-! The outputs that the host reads (44_status_unpack.md R240 to R256, 30_encoding.md R84). -/

namespace Sys2Proof.Machine

/-! ### The status outputs as numbers -/

/-- A bit field as a number (44_status_unpack.md R240). -/
theorem field_toNat (m : Memory) (i lsb w : Nat) : (field m i lsb w).toNat = (m.read i).toNat / 2 ^ lsb % 2 ^ w := by
  rw [field, BitVec.extractLsb'_toNat, Nat.shiftRight_eq_div_pow]

/-- The outputs while there is a snapshot. -/
theorem statusOutputs_valid {s : State} (h : s.stValid = true) (pf : CapMap) : statusOutputs pf s = some
    { priming := field s.stSnap 1 0 1
      tempRaw := s.stSnap.read 2
      hour := s.stSnap.read 3
      minute := s.stSnap.read 4
      heatMode := field s.stSnap 5 0 2
      tempScale := field s.stSnap 9 0 1
      clock24 := field s.stSnap 9 1 1
      filterMode := field s.stSnap 9 2 2
      tempRange := field s.stSnap 10 3 1
      heating := field s.stSnap 10 4 2
      heatingActive := field s.stSnap 10 4 2 != 0#2
      pump := Vector.ofFn (fun k : Fin 6 => stPump s (k.val + 1))
      setTempRaw := s.stSnap.read 20
      cap := Vector.ofFn (fun j : Fin 7 => stCap pf s j) } := if_pos h

theorem statusOutputs_none {s : State} (h : s.stValid = false) (pf : CapMap) : statusOutputs pf s = none :=
  if_neg (by simp [h])

theorem stValid_of_statusOutputs {pf : CapMap} {s : State} {o : StatusOutputs} (h : statusOutputs pf s = some o) :
    s.stValid = true := by
  by_contra hv
  rw [statusOutputs_none (Bool.eq_false_iff.2 hv)] at h
  cases h

/-- A pump's output as a number: two bits of byte 11 or 12 where it is present (44_status_unpack.md R251). -/
theorem stPump_toNat (s : State) (k : Nat) : (stPump s (k + 1)).toNat =
    if s.cfgPumpPresent.getLsbD k = false then 0
    else if k < 4 then (s.stSnap.read 11).toNat / 4 ^ k % 4
    else (s.stSnap.read 12).toNat / 4 ^ (k - 4) % 4 := by
  have hpow : ∀ j, 2 ^ (2 * j) = 4 ^ j := fun j => pow_mul 2 2 j
  unfold stPump rawPump
  rw [Nat.add_sub_cancel]
  cases s.cfgPumpPresent.getLsbD k with
  | false => rfl
  | true =>
    simp only [if_true, Bool.true_eq_false, if_false, Nat.add_one_le_iff]
    split
    · rw [field_toNat, hpow]; rfl
    · rw [field_toNat, show k + 1 - 5 = k - 4 by omega, hpow]; rfl

/-- Settles O35: each output is a field of its byte, and a field is a quotient and remainder. -/
theorem statusOutputsAreTheStatedBits : Obligations.StatusOutputsAreTheStatedBits := by
  refine fun pf s => ⟨fun h => statusOutputs_none h pf, fun h => ⟨_, statusOutputs_valid h pf, ?_, rfl, rfl, rfl,
    ?_, ?_, field_toNat s.stSnap 9 1 1, field_toNat s.stSnap 9 2 2, field_toNat s.stSnap 10 3 1,
    field_toNat s.stSnap 10 4 2, ?_, rfl, fun k => ?_⟩⟩
  · simpa using field_toNat s.stSnap 1 0 1
  · simpa using field_toNat s.stSnap 5 0 2
  · simpa using field_toNat s.stSnap 9 0 1
  · have hheat : (field s.stSnap 10 4 2).toNat = (s.stSnap.read 10).toNat / 16 % 4 := field_toNat ..
    rw [← hheat, bne_iff_ne, ne_eq, ne_eq, ← BitVec.toNat_inj]
    rfl
  · rw [← stPump_toNat]
    exact congrArg BitVec.toNat (Vector.get_ofFn _ k)

/-- Settles O36: an enabled item is its field, which a byte has room for; every other item is 0. -/
theorem capabilityOutputsAreGated : Obligations.CapabilityOutputsAreGated := by
  refine ⟨fun pf s j _ => ?_, fun pf s j h => stCap_disabled (by rw [h]; exact BitVec.getLsbD_zero) pf,
    fun pf s o j ho => ?_⟩
  · unfold stCap
    cases s.cfgCapEn.getLsbD j.val with
    | false => rfl
    | true =>
      have hbyte := (s.stSnap.read (pf.get j).byte).isLt
      have hfit : (field s.stSnap (pf.get j).byte (pf.get j).lsb (pf.get j).width).toNat < 2 ^ 8 := by
        rw [field_toNat]
        exact Nat.lt_of_le_of_lt (Nat.le_trans (Nat.mod_le _ _) (Nat.div_le_self _ _)) hbyte
      rw [if_pos rfl, if_neg Bool.noConfusion, BitVec.toNat_setWidth, Nat.mod_eq_of_lt hfit, field_toNat]
  · rw [statusOutputs_valid (stValid_of_statusOutputs ho)] at ho
    cases ho
    exact Vector.get_ofFn _ j

/-- The scale bit is bit 0 of byte 9. -/
theorem tempScale_eq_one (m : Memory) : (field m 9 0 1 == 1#1) = (m.read 9).getLsbD 0 := by
  rw [field]
  generalize m.read 9 = b
  revert b; decide

theorem degrees_celsius (b : Byte) : (Temperature.mk true b).degrees * 2 = (b.toNat : Rat) :=
  div_mul_cancel₀ _ two_ne_zero

theorem degrees_fahrenheit (b : Byte) : (Temperature.mk false b).degrees = (b.toNat : Rat) := rfl

/-- Settles O37: both temperatures take their unit from the one scale bit. -/
theorem temperaturesAreExact : Obligations.TemperaturesAreExact := by
  intro pf s o ho
  rw [statusOutputs_valid (stValid_of_statusOutputs ho)] at ho
  cases ho
  simp only [StatusOutputs.temperature, StatusOutputs.setTemperature, tempScale_eq_one]
  refine ⟨fun h => ?_, fun h => ?_⟩
  · rw [h]; exact ⟨degrees_celsius _, degrees_celsius _⟩
  · rw [h]; exact ⟨degrees_fahrenheit _, degrees_fahrenheit _⟩

/-! ### What the outputs depend on -/

theorem field_congr {m m' : Memory} {i : Nat} (h : m.read i = m'.read i) (lsb w : Nat) :
    field m i lsb w = field m' i lsb w := by
  rw [field, field, h]

/-- A pump's output depends on CFG and on bytes 11 and 12 of the snapshot. -/
theorem stPump_congr {s t : State} (hp : t.cfgPumpPresent = s.cfgPumpPresent)
    (hs : ∀ i < 31, s.stSnap.read i = t.stSnap.read i) (k : Nat) : stPump s k = stPump t k := by
  unfold stPump rawPump
  rw [hp, field_congr (hs 11 (by decide)), field_congr (hs 12 (by decide))]

/-- A capability item depends on CFG and on the byte that P_CAP_FIELD gives it. -/
theorem stCap_congr {s t : State} {pf : CapMap} (hpf : pf.Admissible) (hc : t.cfgCapEn = s.cfgCapEn)
    (hs : ∀ i < 31, s.stSnap.read i = t.stSnap.read i) (j : Fin 7) : stCap pf s j = stCap pf t j := by
  have hbyte : (pf.get j).byte < 31 := by
    have := hpf.inBytes j
    omega
  unfold stCap
  rw [hc, field_congr (hs _ hbyte)]

/-- The status outputs depend on CFG and on the snapshot's bytes while there is one. -/
theorem statusOutputs_congr {s t : State} {pf : CapMap} (hpf : pf.Admissible) (hv : t.stValid = s.stValid)
    (hp : t.cfgPumpPresent = s.cfgPumpPresent) (hc : t.cfgCapEn = s.cfgCapEn)
    (hs : s.stValid = true → ∀ i < 31, s.stSnap.read i = t.stSnap.read i) : statusOutputs pf s = statusOutputs pf t := by
  cases hvs : s.stValid with
  | false => rw [statusOutputs_none hvs, statusOutputs_none (hv.trans hvs)]
  | true =>
    replace hs := hs hvs
    rw [statusOutputs_valid hvs, statusOutputs_valid (hv.trans hvs)]
    simp only [field_congr (hs 1 (by decide)), field_congr (hs 5 (by decide)), field_congr (hs 9 (by decide)),
      field_congr (hs 10 (by decide)), hs 2 (by decide), hs 3 (by decide), hs 4 (by decide), hs 20 (by decide),
      stPump_congr hp hs, stCap_congr hpf hc hs]

/-- Settles O50: outside the buffers the two states are the same, and each output reads only bytes they agree on. -/
theorem outputsShowOnlyDefinedBytes : Obligations.OutputsShowOnlyDefinedBytes := by
  refine ⟨fun s draw h => if_pos h, fun s draw i => ⟨fun h => if_pos h, fun hv hi => ?_, fun h => if_pos h⟩, ?_⟩
  · exact if_pos (by rw [hv, Bool.true_and]; exact decide_eq_true hi)
  · rintro s t pf draw i ⟨hothers, -, hpay, hsnap, hpl, hframe⟩ hpf
    have hstatus : statusOutputs pf s = statusOutputs pf t :=
      statusOutputs_congr hpf (by rw [hothers]) (by rw [hothers]) (by rw [hothers])
        fun hv i hi => hsnap i ⟨hv, hi⟩
    refine ⟨by rw [hothers]; rfl, by rw [hothers]; rfl, ?_, ?_, ?_, ?_, hstatus⟩
    · have hbusy : txValid t = txValid s := by rw [hothers]; rfl
      have hidx : t.txIdx = s.txIdx := by rw [hothers]
      unfold txData
      rw [hbusy, hidx]
      split
      · rename_i h
        exact hframe _ ((txBusy_iff s).1 h)
      · rfl
    · have hlen : t.frmPlen = s.frmPlen := by rw [hothers]
      unfold hostReadPayload
      rw [hlen]
      split
      · rename_i h
        exact hpay i h
      · rfl
    · have hv : t.stValid = s.stValid := by rw [hothers]
      have hr : t.resets = s.resets := by rw [hothers]
      unfold hostReadSnapshot
      rw [hv, hr]
      split
      · rename_i h
        obtain ⟨hv, hi⟩ := (Bool.and_eq_true _ _).mp h
        exact hsnap i ⟨hv, of_decide_eq_true hi⟩
      · rfl
    · have hw : t.txPlW = s.txPlW := by rw [hothers]
      have hr : t.resets = s.resets := by rw [hothers]
      unfold hostReadStaging
      rw [hw, hr]
      split
      · rename_i h
        exact hpl i h
      · rfl

end Sys2Proof.Machine
end

section
/-! The cycle (00_scope.md R13, 70_reset_and_hazards.md R310) and reset. -/

namespace Sys2Proof.Machine

/-- The start of a cycle, written out. -/
theorem beginCycle_eq (rest : List CycleInput) (s : State) :
    beginCycle rest s = { s with events := {}, inputs := rest } := rfl

/-- Settles O5: each port's cycle by the step's equation for it. -/
theorem stepRunsTheDecodedOperation : Obligations.StepRunsTheDecodedOperation := by
  refine ⟨fun s rest w i hi hin => step_cmd hin hi, fun s rest l b hin => ?_, fun s rest hin => step_pop hin,
    fun s c rest hin hrst => step_rst hin hrst, fun s hin => ?_, fun s rest l b w hin => ?_⟩
  · rw [step_rx hin, decodeRx_byte, beginCycle_eq]
  · rw [step_nil hin, beginCycle_eq, ← hin]
  · rw [step_noRst hin rfl, runSubSteps_eq, decodeRx_idle]
    rfl

/-- Settles O6: with reset the cycle is RESET, without it the three sub-steps in a row. -/
theorem subStepsOfACycleRunInTheFixedOrder : Obligations.SubStepsOfACycleRunInTheFixedOrder := by
  refine fun s c rest hin => ⟨fun hrst => step_rst hin hrst, fun hrst => ?_⟩
  rw [step_noRst hin hrst, runSubSteps_eq]
  simp only [runCommand_eq]
  rfl

theorem exec_reset (s : State) : exec .reset s =
    .next { State.reset with params := s.params, inputs := s.inputs, resets := s.resets + 1 } := rfl

theorem statusOutputs_reset (s : State) (pf : CapMap) : statusOutputs pf
    { State.reset with params := s.params, inputs := s.inputs, resets := s.resets + 1 } = none :=
  statusOutputs_none rfl pf

/-- Settles O38: the reset state's fields one by one, and the cycle that resets. -/
theorem resetLoadsEveryStatedValue : Obligations.ResetLoadsEveryStatedValue := by
  refine fun s => ⟨_, exec_reset s, rfl, crcOut_of_preset rfl, rfl, rfl, rfl, rfl, rfl, rfl, rfl, rfl, rfl, rfl, rfl, rfl, rfl, rfl, rfl,
    rfl, rfl, rfl, rfl, rfl, statusOutputs_reset s, rfl, rfl, rfl, rfl, rfl, rfl, rfl, rfl, rfl, rfl, fun c rest hin hrst => ?_⟩
  rw [step_rst hin hrst]
  exact exec_reset _

/-- Settles O39: RESET of the state at the cycle's start. -/
theorem resetCycleLeavesTheResetState : Obligations.ResetCycleLeavesTheResetState :=
  fun s _ rest hin hrst => (step_rst hin hrst).trans (exec_reset (beginCycle rest s))

/-- Settles O48: a cycle begins by clearing the events. -/
theorem eventsLastOneCycle : Obligations.EventsLastOneCycle := by
  intro s e
  rw [step_eq, step_eq]
  rfl

/-! ### What a step leaves -/

/-- A step keeps the parameters. -/
theorem step_params {s t : State} (h : step s = .next t) : t.params = s.params := by
  obtain ⟨-, h⟩ | ⟨-, u, v, hu, hv, ht⟩ := step_cases h
  · cases h; rfl
  · rw [subSteps_frame hv ht, exec_receiver (decodeRx_part ..) hu]; rfl

/-- Settles O42: by induction over the run. -/
theorem parametersNeverChange : Obligations.ParametersNeverChange := by
  intro k
  induction k with
  | zero => intro s t h; cases h; rfl
  | succ k ih =>
    intro s t h
    obtain ⟨u, hu, hr⟩ := run_succ_eq_next.1 h
    exact (ih u t hr).trans (step_params hu)

/-- A command of another unit leaves crc_reg, CFG and the transmitter's elements. -/
theorem exec_command_otherParts {i : Instr} {s t : State} (hi : isCommand i = true) (h : exec i s = .next t) :
    (instrPart i ≠ .crc → t.crcReg = s.crcReg) ∧
    (instrPart i ≠ .config → t.cfgPumpPresent = s.cfgPumpPresent ∧ t.cfgCapEn = s.cfgCapEn) ∧
    (instrPart i ≠ .transmitter → t.txPl = s.txPl ∧ t.txPlW = s.txPlW ∧ t.txFrame = s.txFrame ∧
      t.txLen = s.txLen ∧ t.txIdx = s.txIdx ∧ t.txErr = s.txErr) := by
  cases i <;> simp only [isCommand, Bool.false_eq_true] at hi
  case txStart ch ty n =>
    obtain h' | h' | ⟨-, -, h'⟩ | ⟨-, -, h'⟩ := execTxStart_cases ch ty n s <;>
      cases h'.symm.trans h <;> exact ⟨fun _ => rfl, fun _ => ⟨rfl, rfl⟩, fun hp => absurd rfl hp⟩
  case crcInit => cases h; exact ⟨fun hp => absurd rfl hp, fun _ => ⟨rfl, rfl⟩, fun _ => ⟨rfl, rfl, rfl, rfl, rfl, rfl⟩⟩
  case crcUpdate b => cases h; exact ⟨fun hp => absurd rfl hp, fun _ => ⟨rfl, rfl⟩, fun _ => ⟨rfl, rfl, rfl, rfl, rfl, rfl⟩⟩
  case txWrite j b => cases h; exact ⟨fun _ => rfl, fun _ => ⟨rfl, rfl⟩, fun hp => absurd rfl hp⟩
  case cfgWrite cap pumps => cases h; exact ⟨fun _ => rfl, fun hp => absurd rfl hp, fun _ => ⟨rfl, rfl, rfl, rfl, rfl, rfl⟩⟩
  all_goals cases h; exact ⟨fun _ => rfl, fun _ => ⟨rfl, rfl⟩, fun _ => ⟨rfl, rfl, rfl, rfl, rfl, rfl⟩⟩

/-- An operation is the receiver's, the dispatcher's, a host command, TX_POP or RESET. -/
theorem instr_kinds (i : Instr) :
    instrPart i = .receiver ∨ instrPart i = .dispatcher ∨ isCommand i = true ∨ i = .txPop ∨ i = .reset := by
  cases i <;> simp [instrPart, isCommand]

theorem instrPart_of_isCommand {i : Instr} (h : isCommand i = true) :
    instrPart i ≠ .receiver ∧ instrPart i ≠ .dispatcher := by
  cases i <;> simp [isCommand, instrPart] at h ⊢

/-- Settles O46: by the kind of the operation, from what operations of that kind write. -/
theorem eachPartWritesOnlyItsOwnElements : Obligations.EachPartWritesOnlyItsOwnElements := by
  intro i s t h hnr
  obtain hk | hk | hk | rfl | rfl := instr_kinds i
  · rw [exec_receiver hk h]
    exact ⟨rfl, rfl, rfl, fun _ => rfl, fun _ => ⟨rfl, rfl⟩, fun _ => ⟨rfl, rfl, rfl, rfl, rfl, rfl⟩,
      fun hp => absurd hk hp, fun hp => absurd hk hp⟩
  · rw [exec_dispatcher hk h]
    exact ⟨rfl, rfl, rfl, fun _ => rfl, fun _ => ⟨rfl, rfl⟩, fun _ => ⟨rfl, rfl, rfl, rfl, rfl, rfl⟩,
      fun _ => ⟨rfl, rfl, rfl, rfl, rfl, rfl, rfl, rfl, rfl, rfl, rfl, rfl, rfl, rfl, rfl, rfl⟩,
      fun _ hp => absurd hk hp⟩
  · obtain ⟨hcrc, hcfg, htx⟩ := exec_command_otherParts hk h
    have hframe := exec_command hk h
    refine ⟨?_, ?_, ?_, hcrc, hcfg, htx, fun _ => ?_, fun _ _ => ?_⟩ <;> rw [hframe]
    · exact ⟨rfl, rfl, rfl, rfl, rfl, rfl, rfl, rfl, rfl, rfl, rfl, rfl, rfl, rfl, rfl, rfl⟩
    · exact ⟨rfl, rfl, rfl, rfl, rfl, rfl, rfl⟩
  · rw [exec_txPop h]
    exact ⟨rfl, rfl, rfl, fun _ => rfl, fun _ => ⟨rfl, rfl⟩, fun hp => absurd rfl hp,
      fun _ => ⟨rfl, rfl, rfl, rfl, rfl, rfl, rfl, rfl, rfl, rfl, rfl, rfl, rfl, rfl, rfl, rfl⟩,
      fun _ _ => ⟨rfl, rfl, rfl, rfl, rfl, rfl, rfl⟩⟩
  · exact absurd rfl hnr

/-! ### Events and host reads (60_exceptions.md R285, 20_memory.md R66) -/

/-- A step without reset is the receive sub-step from the cycle's start, then a pop and a command. -/
theorem step_cases_noRst {s t : State} (h : step s = .next t) (hr : ∀ c rest, s.inputs = c :: rest → c.rst = false) :
    ∃ u v, exec (decodeRx s.params.rxSource s.rxState
        (rxWord (s.inputs.headD {}).rxValid (s.inputs.headD {}).rxLast (s.inputs.headD {}).rxData))
        (beginCycle s.inputs.tail s) = .next u ∧
      (if (s.inputs.headD {}).txReady then exec .txPop u else .next u) = .next v ∧
      runCommand (s.inputs.headD {}) v = .next t := by
  obtain ⟨hrst, -⟩ | ⟨-, hsub⟩ := step_cases h
  · cases hin : s.inputs with
    | nil => rw [hin] at hrst; exact absurd hrst Bool.noConfusion
    | cons c rest =>
      rw [hin] at hrst
      exact absurd ((hr c rest hin).symm.trans hrst) Bool.noConfusion
  · exact hsub

/-- Everything the receive sub-step of a cycle says of the frame, the message and the snapshot by its three events. -/
structure ReceiveReport (s u : State) : Prop where
  frame : u.events.frame = true → u.frmSeq = s.frmSeq + 1#8 ∧ u.frmAny = true
  noFrame : u.events.frame = false → u.frmSeq = s.frmSeq ∧ u.frmAny = s.frmAny ∧ u.frmErr = s.frmErr ∧
    u.frmCnt = s.frmCnt ∧ u.frmCh = s.frmCh ∧ u.frmFlag = s.frmFlag ∧ u.frmType = s.frmType ∧ u.frmPlen = s.frmPlen ∧
    u.frmPayload = s.frmPayload ∧ u.frmCrcRx = s.frmCrcRx ∧ u.frmCrcCalc = s.frmCrcCalc ∧ u.events.msg = false
  msg : u.events.msg = true ↔ u.events.frame = true ∧ u.frmErr = .none
  noMsg : u.events.msg = false →
    u.msgAny = s.msgAny ∧ u.msgErr = s.msgErr ∧ u.msgVariant = s.msgVariant ∧ u.msgSub = s.msgSub
  status : u.events.status = true → u.events.msg = true ∧ u.msgErr = .none ∧ u.stValid = true
  noStatus : u.events.status = false → u.stSnap = s.stSnap ∧ u.stValid = s.stValid ∧ u.stChanged = s.stChanged
  unchanged : u.events.status = true → u.stChanged = false → u.stSnap = s.stSnap ∧ s.stValid = true

/-- A receive step that completes nothing emits nothing. -/
theorem receiveReport_of_quiet {s u : State} (hev : s.events = {})
    (h : u = { s with rxState := u.rxState, rxCnt := u.rxCnt, rxNeed := u.rxNeed, rxBuf := u.rxBuf, rxLastb := u.rxLastb }) :
    ReceiveReport s u := by
  have hu : u.events = {} := by rw [h]; exact hev
  refine ⟨?_, ?_, ?_, ?_, ?_, ?_, ?_⟩ <;> rw [hu]
  · exact nofun
  · intro _; rw [h]; exact ⟨rfl, rfl, rfl, rfl, rfl, rfl, rfl, rfl, rfl, rfl, rfl, rfl⟩
  · exact ⟨nofun, fun hf => absurd hf.1 Bool.noConfusion⟩
  · intro _; rw [h]; exact ⟨rfl, rfl, rfl, rfl⟩
  · exact nofun
  · intro _; rw [h]; exact ⟨rfl, rfl, rfl⟩
  · exact nofun

/-- A completion reports its candidate. -/
theorem receiveReport_of_complete {s w u : State} (hev : s.events = {}) (h : complete w = .next u)
    (hw : w = { s with rxCnt := w.rxCnt, rxNeed := w.rxNeed, rxBuf := w.rxBuf, rxLastb := w.rxLastb }) :
    ReceiveReport s u := by
  obtain ⟨u', hu', hframe, hcases⟩ := complete_spec w
  obtain rfl : u' = u := Host.Outcome.next.inj (hu'.symm.trans h)
  have hwev : w.events = {} := by rw [hw]; exact hev
  have hframeEv : u'.events.frame = true := by rw [hframe]
  have hnoFrame : u'.events.frame = false → False := fun hf => Bool.noConfusion (hf.symm.trans hframeEv)
  have hseq : u'.frmSeq = s.frmSeq + 1#8 ∧ u'.frmAny = true := by rw [hframe, hw]; exact ⟨rfl, rfl⟩
  obtain ⟨herr, -, hbad⟩ | ⟨herr, -, -, -, -, -, -, -, -, -, -, hmsg, -, hsnap⟩ := hcases
  · have hmsg : u'.events.msg = false := by rw [hbad, hwev]
    have hstatus : u'.events.status = false := by rw [hbad, hwev]
    have hnone : u'.frmErr ≠ .none := fun hn => by rw [hn] at herr; simp at herr
    refine ⟨fun _ => hseq, fun hf => (hnoFrame hf).elim, by simp [hmsg, hnone], fun _ => ?_, by simp [hstatus],
      fun _ => ?_, by simp [hstatus]⟩
    · rw [hbad, hw]; exact ⟨rfl, rfl, rfl, rfl⟩
    · rw [hbad, hw]; exact ⟨rfl, rfl, rfl⟩
  · have hwv : w.stValid = s.stValid := by rw [hw]
    have hws : w.stSnap = s.stSnap := by rw [hw]
    have hwc : w.stChanged = s.stChanged := by rw [hw]
    rw [hwev, hwv, hws, hwc] at hsnap
    refine ⟨fun _ => hseq, fun hf => (hnoFrame hf).elim, by simp [hmsg, hframeEv, herr], by simp [hmsg], fun hst => ?_,
      fun hst => ?_, fun hst hch => ?_⟩
    · obtain ⟨hno, -⟩ | ⟨-, hok, hv, -⟩ := hsnap
      · exact absurd (hst.symm.trans hno) Bool.noConfusion
      · exact ⟨hmsg, hok, hv⟩
    · obtain ⟨-, hv, hs, hc⟩ | ⟨hyes, -⟩ := hsnap
      · exact ⟨hs, hv, hc⟩
      · exact absurd (hst.symm.trans hyes) Bool.noConfusion
    · obtain ⟨hno, -⟩ | ⟨-, -, -, ⟨-, hv, hs⟩ | ⟨hyes, -⟩⟩ := hsnap
      · exact absurd (hst.symm.trans hno) Bool.noConfusion
      · exact ⟨hs, hv⟩
      · exact absurd (hch.symm.trans hyes) Bool.noConfusion

theorem receiveReport_of_exec {i : Instr} {s u : State} (hev : s.events = {}) (hi : instrPart i = .receiver)
    (h : exec i s = .next u) : ReceiveReport s u := by
  obtain ⟨w, hw, hframe⟩ | hquiet := exec_receiver_cases hi h
  · exact receiveReport_of_complete hev hw hframe
  · exact receiveReport_of_quiet hev hquiet

/-- A cycle without reset reports what its receive sub-step did: the pop and the command leave those elements. -/
theorem receiveReport_of_step {s t : State} (h : step s = .next t)
    (hr : ∀ c rest, s.inputs = c :: rest → c.rst = false) : ReceiveReport s t := by
  obtain ⟨u, v, hu, hv, ht⟩ := step_cases_noRst h hr
  have hrep := receiveReport_of_exec (s := beginCycle s.inputs.tail s) rfl (decodeRx_part ..) hu
  rw [subSteps_frame hv ht]
  exact ⟨hrep.frame, hrep.noFrame, hrep.msg, hrep.noMsg, hrep.status, hrep.noStatus, hrep.unchanged⟩

/-- Settles O47: the cycle's report, with frm_seq as a number. -/
theorem eventsTellWhatTheCycleDid : Obligations.EventsTellWhatTheCycleDid := by
  intro s t h hr
  have hrep := receiveReport_of_step h hr
  refine ⟨fun hf => ?_, hrep.noFrame, hrep.msg, hrep.noMsg, hrep.status, hrep.noStatus⟩
  obtain ⟨hseq, hany⟩ := hrep.frame hf
  exact ⟨by rw [hseq]; exact BitVec.toNat_add _ _, hany⟩

/-- What a host command sub-step that answers did: nothing, the event of an illegal word, or a command. -/
theorem runCommand_cases {c : CycleInput} {s t : State} (h : runCommand c s = .next t) :
    t = s ∨ t = raiseError .illegalCommand s ∨
      (c.cmdValid = true ∧ ∃ i, decodeCommand c.cmd = .ok i ∧ isCommand i = true ∧ exec i s = .next t) := by
  rw [runCommand_eq] at h
  cases hv : c.cmdValid with
  | false => rw [hv] at h; cases h; exact .inl rfl
  | true =>
    simp only [hv, if_true] at h
    cases hd : decodeCommand c.cmd with
    | error e => rw [hd] at h; cases h; exact .inr (.inl rfl)
    | ok i => rw [hd] at h; exact .inr (.inr ⟨rfl, i, rfl, decodeCommand_isCommand hd, h⟩)

/-- The host command sub-step leaves a staged byte that no TX_WRITE of it writes. -/
theorem runCommand_staging {c : CycleInput} {v t : State} {i : Nat} (h : runCommand c v = .next t)
    (hw : ∀ j b, c.cmdValid = true → decodeCommand c.cmd = .ok (.txWrite j b) → j.toNat ≠ i) :
    t.txPlW.getLsbD i = v.txPlW.getLsbD i ∧ t.txPl.read i = v.txPl.read i := by
  obtain rfl | rfl | ⟨hvalid, j, hj, hcmd, hexec⟩ := runCommand_cases h
  · exact ⟨rfl, rfl⟩
  · exact ⟨rfl, rfl⟩
  · cases j <;> simp only [isCommand, Bool.false_eq_true] at hcmd
    case txWrite k b =>
      have hne : i ≠ k.toNat := (hw k b hvalid hj).symm
      cases hexec
      exact ⟨by rw [execTxWrite_ghost, decide_eq_false hne, Bool.or_false], Memory.read_write_other v.txPl hne b⟩
    case txStart ch ty n =>
      obtain h' | h' | ⟨-, -, h'⟩ | ⟨-, -, h'⟩ := execTxStart_cases ch ty n v <;>
        cases h'.symm.trans hexec <;> exact ⟨rfl, rfl⟩
    all_goals cases hexec; exact ⟨rfl, rfl⟩

/-- The host command sub-step leaves the loaded frame unless it loads another. -/
theorem runCommand_frame_kept {c : CycleInput} {v t : State} (h : runCommand c v = .next t)
    (hev : t.events.txStart = false) : t.txIdx = v.txIdx ∧ t.txLen = v.txLen ∧ t.txFrame = v.txFrame := by
  obtain rfl | rfl | ⟨-, j, -, hcmd, hexec⟩ := runCommand_cases h
  · exact ⟨rfl, rfl, rfl⟩
  · exact ⟨rfl, rfl, rfl⟩
  · cases j <;> simp only [isCommand, Bool.false_eq_true] at hcmd
    case txStart ch ty n =>
      obtain h' | h' | ⟨-, -, h'⟩ | ⟨-, -, h'⟩ := execTxStart_cases ch ty n v <;> cases h'.symm.trans hexec
      · exact ⟨rfl, rfl, rfl⟩
      · exact ⟨rfl, rfl, rfl⟩
      · exact absurd hev Bool.noConfusion
    all_goals cases hexec; exact ⟨rfl, rfl, rfl⟩

/-- A pop sub-step without a byte sent changes nothing. -/
theorem pop_of_no_byte {c : CycleInput} {u v : State}
    (h : (if c.txReady then exec .txPop u else .next u) = .next v) (hev : v.events.txByte = none) : v = u := by
  split at h
  · by_cases hb : u.txIdx < u.txLen
    · obtain hin | hout := Nat.lt_or_ge u.txIdx 257
      · cases (exec_txPop_busy hb hin).symm.trans h
        cases hev
      · cases (exec_txPop_outside hb hout).symm.trans h
    · cases (exec_txPop_idle hb).symm.trans h
      rfl
  · cases h; rfl

/-- Settles O51: each output reads elements that the cycle leaves unless it does what the clause excludes. -/
theorem hostReadsCanBeRepeated : Obligations.HostReadsCanBeRepeated := by
  intro s t i h hr
  have hrep := receiveReport_of_step h hr
  obtain ⟨u, v, hu, hv, ht⟩ := step_cases_noRst h hr
  have hrx := exec_receiver (decodeRx_part ..) hu
  have hsub := subSteps_frame hv ht
  have hresets : t.resets = s.resets := by rw [hsub, hrx]; rfl
  have hpop : PopOnly u v := by
    split at hv
    · exact exec_txPop hv
    · cases hv; rfl
  refine ⟨fun hf draw => ?_, fun hs => ?_, fun hw => ?_, fun hc => ?_, fun hbyte hstart => ?_⟩
  · obtain ⟨-, -, -, -, -, -, -, hlen, hpay, -⟩ := hrep.noFrame hf
    exact hostReadPayload_congr hlen hpay draw i
  · cases hst : t.events.status with
    | false =>
      obtain ⟨hsnap, hvalid, -⟩ := hrep.noStatus hst
      exact hostReadSnapshot_congr hresets hvalid hsnap i
    | true =>
      obtain ⟨hsnap, hvalid⟩ := hrep.unchanged hst (hs.resolve_left (by rw [hst]; exact Bool.noConfusion))
      obtain ⟨-, -, hvalid'⟩ := hrep.status hst
      exact hostReadSnapshot_congr hresets (hvalid'.trans hvalid.symm) hsnap i
  · obtain ⟨hghost, hread⟩ := runCommand_staging (i := i) ht fun j b hvalid hj => by
      cases hin : s.inputs with
      | nil => rw [hin] at hvalid; cases hvalid
      | cons c rest => rw [hin] at hvalid hj; exact hw c rest j b hin hvalid hj
    rw [hpop, hrx] at hghost hread
    exact hostReadStaging_congr hresets hghost hread
  · have hcrc := step_crcReg h
    have hkeep : crcEffect s.crcReg (s.inputs.headD {}) = s.crcReg := by
      cases hin : s.inputs with
      | nil => rfl
      | cons c rest =>
        unfold crcEffect
        rw [List.headD_cons, hr c rest hin]
        cases hvalid : c.cmdValid with
        | false => rfl
        | true =>
          cases hd : decodeCommand c.cmd with
          | error e => rfl
          | ok j =>
            have hpart := hc c rest j hin hvalid hd
            cases j <;> simp [instrPart] at hpart ⊢
    unfold crcOut
    rw [hcrc, hkeep]
  · obtain ⟨hidx, hlen, hframe⟩ := runCommand_frame_kept ht hstart
    have hbyte' : v.events.txByte = none := by
      rw [runCommand_frame ht] at hbyte; exact hbyte
    obtain rfl := pop_of_no_byte hv hbyte'
    rw [hrx] at hidx hlen hframe
    exact ⟨txValid_congr hidx hlen, txData_congr hidx hlen hframe⟩

end Sys2Proof.Machine
end

section
/-! The loaded frame leaving byte by byte (42_frame_tx.md R185, R186, 20_memory.md R68). -/

namespace Sys2Proof.Machine

theorem step_script_pop {s : State} {rest : List CycleInput} (h : s.inputs = Script.pop :: rest)
    (hbusy : s.txIdx < s.txLen) (hin : s.txIdx < 257) : step s = .next (sendByte (beginCycle rest s)) :=
  (step_pop h).trans (exec_txPop_busy hbusy hin)

theorem runCycles_succ {k : Nat} {s t : State} (h : step s = .next t) :
    runCycles (k + 1) s = (runCycles k t).map fun r => (r.1, t.events :: r.2) := by
  rw [runCycles, h]

theorem readSlice_succ (m : Memory) (i n : Nat) : m.readSlice i (n + 1) = m.read i :: m.readSlice (i + 1) n := rfl

/-- Settles O19: by induction over the bytes left; the byte sent first is the last exactly where one is left. -/
theorem popsSendTheLoadedFrameInOrder : Obligations.PopsSendTheLoadedFrameInOrder := by
  intro m
  induction m with
  | zero => intro s rest _ _ hpos; exact absurd hpos (Nat.lt_irrefl 0)
  | succ m ih =>
    intro s rest hm hlen _ hin
    have hstep := step_script_pop (rest := Script.pops m ++ rest) hin (by omega) (by omega)
    rw [runCycles_succ hstep]
    obtain rfl | hpos := Nat.eq_zero_or_pos m
    · have hlast : s.txIdx + 1 = s.txLen := hm
      refine ⟨_, _, rfl, rfl, ?_, ?_, txBusy_sendByte_last hlast⟩
      · change [false || decide (s.txIdx + 1 = s.txLen)] = [true]
        rw [hlast, decide_eq_true rfl]; rfl
      · have hsent : sendByte (beginCycle rest s) = { s with
          txIdx := s.txIdx + 1, inputs := rest, events := (sendByte (beginCycle rest s)).events } := rfl
        rwa [hlast] at hsent
    · obtain ⟨t, evs, hrun, hbytes, hdone, hframe, hidle⟩ :=
        ih (sendByte (beginCycle (Script.pops m ++ rest) s)) rest (by change s.txIdx + 1 + m = s.txLen; omega) hlen hpos rfl
      rw [hrun]
      refine ⟨t, _, rfl, ?_, ?_, hframe, hidle⟩
      · rw [List.map_cons, hbytes, readSlice_succ, List.map_cons]; rfl
      · obtain ⟨k, rfl⟩ : ∃ k, m = k + 1 := ⟨m - 1, by omega⟩
        have hmore : ¬ s.txIdx + 1 = s.txLen := by omega
        rw [List.map_cons, hdone, Nat.add_sub_cancel, Nat.add_sub_cancel, List.replicate_succ, List.cons_append]
        congr 1
        exact (Bool.false_or _).trans (decide_eq_false hmore)

/-- The cycle that pops a byte and presents a command runs the command on the state without that byte. -/
theorem step_pop_cmd {s : State} {c : CycleInput} {rest : List CycleInput} {i : Instr} (hin : s.inputs = c :: rest)
    (hrst : c.rst = false) (hrx : c.rxValid = false) (hready : c.txReady = true) (hvalid : c.cmdValid = true)
    (hi : decodeCommand c.cmd = .ok i) (hbusy : s.txIdx < s.txLen) (hidx : s.txIdx < 257) :
    step s = exec i (sendByte (beginCycle rest s)) := by
  rw [step_noRst hin hrst, runSubSteps_eq, hrx, decodeRx_idle, exec_rxIdle, andThen_next, hready, if_pos rfl,
    exec_txPop_busy (s := beginCycle rest s) hbusy hidx, andThen_next, runCommand_eq, hvalid, if_pos rfl, hi]

/-- Settles O20: the start sees the transmitter idle exactly where the pop sent the last byte. -/
theorem popComesBeforeStartInACycle : Obligations.PopComesBeforeStartInACycle := by
  intro ch ty n s c rest hin hrst hrx hready hvalid hi hn hstaged hlen
  refine ⟨fun hlast => ?_, fun hmore => ?_⟩
  · rw [step_pop_cmd hin hrst hrx hready hvalid hi (by omega) (by omega),
      exec_txStart_idle (s := sendByte (beginCycle rest s)) (Nat.not_lt.2 hlast.ge) hn,
      if_pos ((stagedWritten_iff (sendByte (beginCycle rest s)) n.toNat).2 hstaged)]
    refine ⟨_, rfl, rfl, by simp, rfl, ?_⟩
    simp [sendByte, hlast]
  · rw [step_pop_cmd hin hrst hrx hready hvalid hi (by omega) (by omega),
      exec_txStart_busy (s := sendByte (beginCycle rest s)) hmore]
    refine ⟨_, rfl, rfl, rfl, rfl, rfl, ?_⟩
    have hnotDone : s.txIdx + 1 ≠ s.txLen := by omega
    simp [raiseError, sendByte, hnotDone]

end Sys2Proof.Machine
end

section
/-! The receive sub-step and the host command touch disjoint elements (00_scope.md R13, 70_reset_and_hazards.md R324):
each reads the same and writes the same whatever the other wrote. -/

namespace Sys2Proof.Machine

/-- `s` with the elements and events that a host command writes taken from `b`. -/
def withCommandPart (b s : State) : State :=
  { s with
    crcReg := b.crcReg, cfgPumpPresent := b.cfgPumpPresent, cfgCapEn := b.cfgCapEn,
    txPl := b.txPl, txPlW := b.txPlW, txFrame := b.txFrame, txLen := b.txLen, txIdx := b.txIdx, txErr := b.txErr,
    events := { s.events with txStart := b.events.txStart, txErr := b.events.txErr, cmdErr := b.events.cmdErr } }

/-- `s` with the elements and events that a receive operation writes taken from `a`. -/
def withReceivePart (a s : State) : State :=
  { s with
    rxState := a.rxState, rxCnt := a.rxCnt, rxNeed := a.rxNeed, rxBuf := a.rxBuf, rxLastb := a.rxLastb,
    frmAny := a.frmAny, frmSeq := a.frmSeq, frmErr := a.frmErr, frmCnt := a.frmCnt,
    frmCh := a.frmCh, frmFlag := a.frmFlag, frmType := a.frmType, frmPlen := a.frmPlen,
    frmPayload := a.frmPayload, frmCrcRx := a.frmCrcRx, frmCrcCalc := a.frmCrcCalc,
    msgAny := a.msgAny, msgErr := a.msgErr, msgVariant := a.msgVariant, msgSub := a.msgSub,
    stValid := a.stValid, stSnap := a.stSnap, stChanged := a.stChanged,
    events := { s.events with frame := a.events.frame, msg := a.events.msg, status := a.events.status } }

/-! ### A receive operation does not see the command's part -/

theorem runVariant_withCommandPart (b s : State) (v : Variant) (k : Pins) :
    runVariant v k (withCommandPart b s) = andThen (runVariant v k s) fun t => .next (withCommandPart b t) := by
  have hpins : checkPins k (withCommandPart b s) = checkPins k s := rfl
  rw [runVariant_eq, runVariant_eq, andThen_next, hpins]
  split
  · rw [statusUnpack_eq, statusUnpack_eq, recordMsg_eq, recordMsg_eq]; rfl
  · rw [recordMsg_eq, recordMsg_eq]; rfl

theorem dispatch_withCommandPart (b s : State) :
    dispatch (withCommandPart b s) = andThen (dispatch s) fun t => .next (withCommandPart b t) := by
  cases h : s.params.typeMap.entry s.frmType with
  | none => rw [dispatch_unmapped h, dispatch_unmapped (s := withCommandPart b s) h]; rfl
  | some e => rw [dispatch_mapped h, dispatch_mapped (s := withCommandPart b s) h]; exact runVariant_withCommandPart b s _ _

theorem complete_withCommandPart (b s : State) :
    complete (withCommandPart b s) = andThen (complete s) fun t => .next (withCommandPart b t) := by
  cases h : frameCheck s.rxCnt s.rxBuf s.rxLastb with
  | framingError => rw [complete_framingError h, complete_framingError (s := withCommandPart b s) h]; rfl
  | lengthError => rw [complete_lengthError h, complete_lengthError (s := withCommandPart b s) h]; rfl
  | checksumError crcRx crcCalc =>
    rw [complete_checksumError h, complete_checksumError (s := withCommandPart b s) h]; rfl
  | ok f =>
    obtain ⟨v, hv, -⟩ := dispatch_spec (latchFrame f (countCandidate s))
    have hv' : dispatch (latchFrame f (countCandidate (withCommandPart b s))) = .next (withCommandPart b v) := by
      change dispatch (withCommandPart b (latchFrame f (countCandidate s))) = _
      rw [dispatch_withCommandPart, hv]; rfl
    rw [complete_ok h hv, complete_ok (s := withCommandPart b s) h hv']; rfl

theorem exec_receiver_withCommandPart {i : Instr} (hi : instrPart i = .receiver) (b s : State) :
    exec i (withCommandPart b s) = andThen (exec i s) fun t => .next (withCommandPart b t) := by
  cases i <;> simp only [instrPart, reduceCtorEq] at hi
  case rxScanHunt l c =>
    rw [exec_rxScanHunt, exec_rxScanHunt]
    by_cases hc : c = Config.delim
    · subst hc; rfl
    · rw [execRxScanHunt_other hc, execRxScanHunt_other hc]; rfl
  case rxScanResync l => rfl
  case rxScanLength l c =>
    by_cases hc : c = 0x00#8
    · subst hc; rfl
    · rw [exec_rxScanLength_nonzero hc, exec_rxScanLength_nonzero hc]; rfl
  case rxScanCollect l c =>
    obtain hin | hout := Nat.lt_or_ge s.rxCnt 257
    · by_cases hn : s.rxNeed = 1#8
      · rw [exec_rxScanCollect_last hin hn, exec_rxScanCollect_last (s := withCommandPart b s) hin hn]
        exact complete_withCommandPart b
          { s with rxBuf := s.rxBuf.write s.rxCnt c, rxCnt := s.rxCnt + 1, rxNeed := 0#8, rxLastb := c }
      · rw [exec_rxScanCollect_more hin hn, exec_rxScanCollect_more (s := withCommandPart b s) hin hn]; rfl
    · rw [exec_rxScanCollect_outside hout, exec_rxScanCollect_outside (s := withCommandPart b s) hout]; rfl
  case rxSpan l c =>
    cases l with
    | true => exact complete_withCommandPart b (takeSpanByte c s)
    | false => rfl
  case rxIdle l c => rfl

/-! ### A host command does not see the receiver's part -/

theorem exec_txStart_withReceivePart (ch ty n : Byte) (a s : State) :
    exec (.txStart ch ty n) (withReceivePart a s) =
      andThen (exec (.txStart ch ty n) s) fun t => .next (withReceivePart a t) := by
  by_cases hb : s.txIdx < s.txLen
  · rw [exec_txStart_busy hb, exec_txStart_busy (s := withReceivePart a s) hb]; rfl
  · obtain hn | hn := Nat.lt_or_ge 250 n.toNat
    · rw [exec_txStart_overflow hb hn, exec_txStart_overflow (s := withReceivePart a s) hb hn]; rfl
    · have hw : stagedWritten (withReceivePart a s) n.toNat = stagedWritten s n.toNat := rfl
      rw [exec_txStart_idle hb hn, exec_txStart_idle (s := withReceivePart a s) hb hn, hw]
      split <;> rfl

theorem exec_command_withReceivePart {j : Instr} (hj : isCommand j = true) (a s : State) :
    exec j (withReceivePart a s) = andThen (exec j s) fun t => .next (withReceivePart a t) := by
  cases j <;> simp only [isCommand, Bool.false_eq_true] at hj
  case txStart ch ty n => exact exec_txStart_withReceivePart ch ty n a s
  all_goals rfl

/-- Settles O45: each operation's next state is the first's part over what the other wrote, and the two overlays are
one state. -/
theorem receiveAndCommandCommute : Obligations.ReceiveAndCommandCommute := by
  intro i j s a b hi hj ha hb
  have haPart : a = withReceivePart a s := exec_receiver hi ha
  have hbPart : b = withCommandPart b s := exec_command hj hb
  have hja : exec j a = .next (withReceivePart a b) := by
    rw [haPart, exec_command_withReceivePart hj, hb, ← haPart]; rfl
  have hib : exec i b = .next (withCommandPart b a) := by
    rw [hbPart, exec_receiver_withCommandPart hi, ha, ← hbPart]; rfl
  have hsame : withReceivePart a b = withCommandPart b a := by
    rw [hbPart, haPart]; rfl
  exact ⟨_, hja, by rw [hib, hsame]⟩

end Sys2Proof.Machine
end

section
/-! The invariant (20_memory.md R60, 10_state.md R24 to R45), part by part: what each sub-step keeps of it, and that
under it every sub-step but one TX_START answers. -/

namespace Sys2Proof.Machine

/-- The receiver's part of the invariant. -/
def ReceiverOk (s : State) : Prop := s.rxBuf.Ok 257 ∧ RxInv s

/-- The part of the result registers. -/
def ResultsOk (s : State) : Prop :=
  s.frmPayload.Ok 250 ∧ s.stSnap.Ok 31 ∧
  s.frmErr ∈ [ErrCode.none, .framingError, .lengthError, .checksumError] ∧ s.frmCnt ≤ 258 ∧ s.frmPlen ≤ 250 ∧
  s.msgErr ∈ [ErrCode.none, .unknownTypeCode, .invalidLength, .invalidChannel] ∧
  (s.msgAny = true → s.frmAny = true) ∧ (s.stValid = true → s.msgAny = true) ∧ (s.stChanged = true → s.stValid = true)

/-- The transmitter's part. -/
def TransmitterOk (s : State) : Prop :=
  s.txPl.Ok 256 ∧ s.txFrame.Ok 257 ∧ s.txIdx ≤ s.txLen ∧ s.txLen ≤ 257 ∧
  s.txErr ∈ [ErrCode.none, .encodeOverflow, .txBusy]

theorem inv_iff (s : State) : s.Inv ↔ ReceiverOk s ∧ ResultsOk s ∧ TransmitterOk s :=
  ⟨fun ⟨rxBuf, frmPayload, stSnap, txPl, txFrame, rx, frmErr, frmCnt, frmPlen, msgErr, txIdx, txLen, txErr, msgAny,
      stValid, stChanged⟩ =>
    ⟨⟨rxBuf, rx⟩, ⟨frmPayload, stSnap, frmErr, frmCnt, frmPlen, msgErr, msgAny, stValid, stChanged⟩,
      ⟨txPl, txFrame, txIdx, txLen, txErr⟩⟩,
   fun ⟨⟨rxBuf, rx⟩, ⟨frmPayload, stSnap, frmErr, frmCnt, frmPlen, msgErr, msgAny, stValid, stChanged⟩,
      ⟨txPl, txFrame, txIdx, txLen, txErr⟩⟩ =>
    ⟨rxBuf, frmPayload, stSnap, txPl, txFrame, rx, frmErr, frmCnt, frmPlen, msgErr, txIdx, txLen, txErr, msgAny,
      stValid, stChanged⟩⟩

theorem Memory.ok_nil (n : Nat) : Memory.Ok [] n := ⟨Memory.wf_nil, Memory.within_nil n⟩

theorem Memory.Ok.write {m : Memory} {n : Nat} (h : m.Ok n) {i : Nat} (hi : i < n) (v : Byte) : (m.write i v).Ok n :=
  ⟨Memory.wf_write h.1 i v, Memory.within_write h.2 hi v⟩

theorem Memory.Ok.writeSlice {m : Memory} {n : Nat} (h : m.Ok n) {bs : List Byte} (hb : bs.length ≤ n) :
    (m.writeSlice 0 bs).Ok n :=
  ⟨Memory.wf_writeSlice h.1 0 bs, Memory.within_writeSlice h.2 (by omega)⟩

/-- A receiver at rest is consistent in both modes. -/
theorem rxInv_rest {s : State} (hst : s.rxState = .hunt) (hcnt : s.rxCnt = 0) (hneed : s.rxNeed = 0#8) : RxInv s := by
  unfold RxInv
  cases s.params.rxSource with
  | scan => simp only [ScanInv, hst]; exact ⟨hcnt, hneed⟩
  | span => exact ⟨hst, hneed, by omega, fun h => by omega⟩

theorem rxInv_scan {s : State} (h : s.params.rxSource = .scan) : RxInv s ↔ ScanInv s := by rw [RxInv, h]

theorem rxInv_span {s : State} (h : s.params.rxSource = .span) : RxInv s ↔ SpanInv s := by rw [RxInv, h]

theorem scanInv_hunt {s : State} (h : s.rxState = .hunt) : ScanInv s ↔ s.rxCnt = 0 ∧ s.rxNeed = 0#8 := by
  rw [ScanInv, h]

theorem scanInv_gotStart {s : State} (h : s.rxState = .gotStart) :
    ScanInv s ↔ s.rxCnt = 1 ∧ s.rxNeed = 0#8 ∧ s.rxBuf.read 0 = 0x7E#8 := by
  rw [ScanInv, h]

theorem scanInv_collect {s : State} (h : s.rxState = .collect) :
    ScanInv s ↔ 2 ≤ s.rxCnt ∧ s.rxNeed ≠ 0#8 ∧ s.rxCnt + s.rxNeed.toNat = (s.rxBuf.read 1).toNat + 2 ∧
      s.rxBuf.read 0 = 0x7E#8 ∧ s.rxBuf.read 1 ≠ 0x7E#8 ∧ s.rxBuf.read (s.rxCnt - 1) = s.rxLastb := by
  rw [ScanInv, h]

theorem reset_inv (p : Params) (inputs : List CycleInput) (resets : Nat) :
    ({ State.reset with params := p, inputs := inputs, resets := resets } : State).Inv := by
  rw [inv_iff]
  refine ⟨⟨Memory.ok_nil _, rxInv_rest rfl rfl rfl⟩,
    ⟨Memory.ok_nil _, Memory.ok_nil _, ?_, Nat.zero_le _, Nat.zero_le _, ?_, nofun, nofun, nofun⟩,
    ⟨Memory.ok_nil _, Memory.ok_nil _, Nat.le_refl _, Nat.zero_le _, ?_⟩⟩ <;> exact List.mem_cons_self

/-- Settles O40: the reset state is one with the default parameters. -/
theorem invariantHoldsAtReset : Obligations.InvariantHoldsAtReset := reset_inv defaultParams [] 0

/-! ### The receive sub-step -/

/-- What a receive operation under the invariant answers: a consistent candidate in progress, or the completion of one
that fits the buffer, with as many bytes as its length byte says in SCAN mode. -/
def ReceivesWell (s : State) (r : Result) : Prop :=
  (∃ u, r = .next u ∧ ReceiverOk u ∧
    u = { s with rxState := u.rxState, rxCnt := u.rxCnt, rxNeed := u.rxNeed, rxBuf := u.rxBuf, rxLastb := u.rxLastb }) ∨
  ∃ w, r = complete w ∧ w.rxBuf.Ok 257 ∧ w.rxCnt ≤ 258 ∧
    (s.params.rxSource = .scan → w.rxCnt = (w.rxBuf.read 1).toNat + 2) ∧
    w = { s with rxCnt := w.rxCnt, rxNeed := w.rxNeed, rxBuf := w.rxBuf, rxLastb := w.rxLastb }

theorem receivesWell_hunt {s : State} (h : ReceiverOk s) (hsrc : s.params.rxSource = .scan) (hst : s.rxState = .hunt)
    (l : Bool) (b : Byte) : ReceivesWell s (exec (.rxScanHunt l b) s) := by
  obtain ⟨hbuf, hrx⟩ := h
  obtain ⟨-, hneed⟩ := (scanInv_hunt hst).1 ((rxInv_scan hsrc).1 hrx)
  rw [exec_rxScanHunt]
  by_cases hb : b = Config.delim
  · subst hb
    refine .inl ⟨_, execRxScanHunt_delim l s, ⟨hbuf.write (i := 0) (by decide) Config.delim, ?_⟩, rfl⟩
    refine Iff.mpr (rxInv_scan hsrc) (Iff.mpr (scanInv_gotStart rfl) ?_)
    exact ⟨rfl, hneed, Memory.read_write_same s.rxBuf 0 Config.delim⟩
  · exact .inl ⟨s, execRxScanHunt_other hb l s, ⟨hbuf, hrx⟩, rfl⟩

theorem receivesWell_length {s : State} (h : ReceiverOk s) (hsrc : s.params.rxSource = .scan)
    (hst : s.rxState = .gotStart) {b : Byte} (hb : b ≠ 0x7E#8) (l : Bool) :
    ReceivesWell s (exec (.rxScanLength l b) s) := by
  obtain ⟨hbuf, hrx⟩ := h
  obtain ⟨-, -, hread⟩ := (scanInv_gotStart hst).1 ((rxInv_scan hsrc).1 hrx)
  have hone : (s.rxBuf.write 1 b).read 1 = b := Memory.read_write_same s.rxBuf 1 b
  by_cases h0 : b = 0x00#8
  · subst h0
    exact .inr ⟨_, execRxScanLength_complete l s, hbuf.write (i := 1) (by decide) 0x00#8, by simp, fun _ => by simp [hone], rfl⟩
  · refine .inl ⟨_, exec_rxScanLength_nonzero h0 l s, ⟨hbuf.write (i := 1) (by decide) b, ?_⟩, rfl⟩
    refine Iff.mpr (rxInv_scan hsrc) (Iff.mpr (scanInv_collect rfl) ?_)
    exact ⟨Nat.le_refl 2, h0, by simp [hone, Nat.add_comm], (Memory.read_write_other _ (by decide) b).trans hread,
      by simpa [hone] using hb, hone⟩

/-- A candidate being collected fits the buffer. -/
theorem rxCnt_lt_of_collect {s : State} (hst : s.rxState = .collect) (h : ScanInv s) : s.rxCnt < 257 := by
  obtain ⟨-, hneed, hsum, -⟩ := (scanInv_collect hst).1 h
  have hbyte := (s.rxBuf.read 1).isLt
  have hpos : s.rxNeed.toNat ≠ 0 := fun h0 => hneed (BitVec.eq_of_toNat_eq h0)
  omega

theorem receivesWell_collect {s : State} (h : ReceiverOk s) (hsrc : s.params.rxSource = .scan)
    (hst : s.rxState = .collect) (l : Bool) (b : Byte) : ReceivesWell s (exec (.rxScanCollect l b) s) := by
  obtain ⟨hbuf, hrx⟩ := h
  have hscan := (rxInv_scan hsrc).1 hrx
  have hin := rxCnt_lt_of_collect hst hscan
  obtain ⟨htwo, hneed, hsum, hread, hlen, -⟩ := (scanInv_collect hst).1 hscan
  have hother : ∀ j < 2, (s.rxBuf.write s.rxCnt b).read j = s.rxBuf.read j :=
    fun j hj => Memory.read_write_other s.rxBuf (by omega) b
  by_cases hn : s.rxNeed = 1#8
  · refine .inr ⟨_, exec_rxScanCollect_last hin hn l b, hbuf.write hin b, by dsimp only; omega, fun _ => ?_, rfl⟩
    rw [hn] at hsum
    simp only [hother 1 (by decide)]
    exact hsum
  · refine .inl ⟨_, exec_rxScanCollect_more hin hn l b, ⟨hbuf.write hin b, ?_⟩, rfl⟩
    refine Iff.mpr (rxInv_scan hsrc) (Iff.mpr (scanInv_collect hst) ?_)
    simp only [hother 0 (by decide), hother 1 (by decide), Nat.add_sub_cancel]
    exact ⟨by omega, by bv_omega, by bv_omega, hread, hlen, Memory.read_write_same s.rxBuf s.rxCnt b⟩

theorem receivesWell_span {s : State} (h : ReceiverOk s) (hsrc : s.params.rxSource = .span) (l : Bool) (b : Byte) :
    ReceivesWell s (exec (.rxSpan l b) s) := by
  obtain ⟨hbuf, hrx⟩ := h
  obtain ⟨hst, hneed, -, -⟩ := (rxInv_span hsrc).1 hrx
  have hbuf' : (takeSpanByte b s).rxBuf.Ok 257 := by
    obtain hin | hfull := Nat.lt_or_ge s.rxCnt 257
    · rw [takeSpanByte_rxBuf_inside hin]; exact hbuf.write hin b
    · rw [takeSpanByte_rxBuf_full hfull]; exact hbuf
  have hcnt : (takeSpanByte b s).rxCnt = min (s.rxCnt + 1) 258 := rfl
  cases l with
  | true =>
    exact .inr ⟨_, exec_rxSpan_marked b s, hbuf', by omega, fun hscan => RxSource.noConfusion (hscan.symm.trans hsrc), rfl⟩
  | false =>
    refine .inl ⟨_, exec_rxSpan_unmarked b s, ⟨hbuf', ?_⟩, rfl⟩
    rw [rxInv_span (s := takeSpanByte b s) hsrc]
    refine ⟨hst, hneed, hcnt.trans_le (Nat.min_le_right _ _), fun _ hle => ?_⟩
    replace hle : (takeSpanByte b s).rxCnt ≤ 257 := hle
    have hin : s.rxCnt < 257 := by omega
    rw [takeSpanByte_rxBuf_inside hin, show (takeSpanByte b s).rxCnt - 1 = s.rxCnt by omega]
    exact Memory.read_write_same s.rxBuf s.rxCnt b

/-- The row that the receive port selects. -/
theorem receivesWell {s : State} (h : ReceiverOk s) (v l : Bool) (b : Byte) :
    ReceivesWell s (exec (decodeRx s.params.rxSource s.rxState (rxWord v l b)) s) := by
  have hquiet : ReceivesWell s (.next s) := .inl ⟨s, rfl, h, rfl⟩
  cases v with
  | false => rw [decodeRx_idle]; exact hquiet
  | true =>
    rw [decodeRx_byte]
    cases hsrc : s.params.rxSource with
    | span => exact receivesWell_span h hsrc l b
    | scan =>
      cases hst : s.rxState with
      | hunt => exact receivesWell_hunt h hsrc hst l b
      | collect => exact receivesWell_collect h hsrc hst l b
      | gotStart =>
        by_cases hb : b = 0x7E#8
        · simp only [decodeScan, if_pos hb]; exact hquiet
        · simp only [decodeScan, if_neg hb]; exact receivesWell_length h hsrc hst hb l

/-- A completion leaves the receiver at rest and keeps the result registers' part. -/
theorem complete_keeps {w t : State} (h : complete w = .next t) (hbuf : w.rxBuf.Ok 257) (hcnt : w.rxCnt ≤ 258)
    (hres : ResultsOk w) : ReceiverOk t ∧ ResultsOk t := by
  obtain ⟨t', ht', hframe, hcases⟩ := complete_spec w
  obtain rfl : t' = t := Host.Outcome.next.inj (ht'.symm.trans h)
  obtain ⟨hpay, hsnap, herr, -, hplen, hmerr, hmany, hvalid, hchanged⟩ := hres
  have hany : t'.frmAny = true := by rw [hframe]
  have hcnt' : t'.frmCnt ≤ 258 := by rw [hframe]; exact hcnt
  refine ⟨⟨by rw [hframe]; exact hbuf, rxInv_rest (by rw [hframe]) (by rw [hframe]) (by rw [hframe])⟩, ?_⟩
  obtain ⟨hbadErr, -, hbad⟩ | ⟨hgood, f, hf, -, -, -, hlen, hpl, -, -, hmsg, -, hme, hst⟩ := hcases
  · have hbadErr' : t'.frmErr ∈ [ErrCode.none, .framingError, .lengthError, .checksumError] :=
      List.mem_cons_of_mem _ hbadErr
    refine ⟨?_, ?_, hbadErr', hcnt', ?_, ?_, fun _ => hany, ?_, ?_⟩ <;> rw [hbad] <;> assumption
  · obtain ⟨-, hfit⟩ := frameCheck_ok_length hf
    refine ⟨by rw [hpl]; exact hpay.writeSlice hfit, ?_, by rw [hgood]; exact List.mem_cons_self, hcnt',
      by rw [hlen]; exact hfit, hme, fun _ => hany, fun _ => hmsg, ?_⟩
    · obtain ⟨-, -, hs, -⟩ | ⟨-, -, -, ⟨-, -, hs⟩ | ⟨-, p, hp, hs⟩⟩ := hst
      · rw [hs]; exact hsnap
      · rw [hs]; exact hsnap
      · rw [hs]; exact hsnap.writeSlice hp.le
    · obtain ⟨-, hv, -, hc⟩ | ⟨-, -, hv, -⟩ := hst
      · rw [hv, hc]; exact hchanged
      · exact fun _ => hv

/-- The receive sub-step answers, and keeps the receiver's part and the result registers'. -/
theorem receive_keeps {s : State} (hrx : ReceiverOk s) (hres : ResultsOk s) (v l : Bool) (b : Byte) :
    ∃ u, exec (decodeRx s.params.rxSource s.rxState (rxWord v l b)) s = .next u ∧ ReceiverOk u ∧ ResultsOk u := by
  obtain ⟨u, hu, hok, hframe⟩ | ⟨w, hw, hbuf, hcnt, -, hframe⟩ := receivesWell hrx v l b
  · exact ⟨u, hu, hok, by rw [hframe]; exact hres⟩
  · obtain ⟨t, ht⟩ := complete_next w
    have hresw : ResultsOk w := by rw [hframe]; exact hres
    exact ⟨t, hw.trans ht, complete_keeps ht hbuf hcnt hresw⟩

/-! ### The pop and the host command -/

/-- The transmit pop answers and keeps the transmitter's part. -/
theorem pop_keeps {u : State} (h : TransmitterOk u) (c : CycleInput) :
    ∃ v, (if c.txReady then exec .txPop u else .next u) = .next v ∧ TransmitterOk v ∧ PopOnly u v := by
  have ⟨hpl, hframe, _, hlen, herr⟩ := h
  cases c.txReady with
  | false => exact ⟨u, rfl, h, rfl⟩
  | true =>
    by_cases hbusy : u.txIdx < u.txLen
    · exact ⟨_, exec_txPop_busy hbusy (by omega), ⟨hpl, hframe, hbusy, hlen, herr⟩, rfl⟩
    · exact ⟨u, exec_txPop_idle hbusy, h, rfl⟩

/-- A host command that answers keeps the transmitter's part. -/
theorem exec_command_keeps {i : Instr} {s t : State} (hi : isCommand i = true) (h : exec i s = .next t)
    (hok : TransmitterOk s) : TransmitterOk t := by
  cases i <;> simp only [isCommand, Bool.false_eq_true] at hi
  case txWrite j b =>
    obtain ⟨hpl, hrest⟩ := hok
    cases h
    exact ⟨hpl.write j.isLt b, hrest⟩
  case txStart ch ty n =>
    obtain ⟨hpl, hframe, hidx, hlen, -⟩ := hok
    obtain h' | h' | ⟨-, hn, h'⟩ | ⟨-, -, h'⟩ := execTxStart_cases ch ty n s <;> cases h'.symm.trans h
    · exact ⟨hpl, hframe, hidx, hlen, by simp [raiseError]⟩
    · exact ⟨hpl, hframe, hidx, hlen, by simp [raiseError]⟩
    · have hfit : (encodeFrame ch ty (stagedPayload s n.toNat)).length ≤ 257 := by
        rw [length_encodeFrame, length_stagedPayload]
        exact Nat.add_le_add_right hn 7
      exact ⟨hpl, hframe.writeSlice hfit, Nat.zero_le _, hfit, List.mem_cons_self⟩
  all_goals cases h; exact hok

theorem runCommand_keeps {c : CycleInput} {s t : State} (h : runCommand c s = .next t) (hok : TransmitterOk s) :
    TransmitterOk t := by
  obtain rfl | rfl | ⟨-, i, -, hi, hexec⟩ := runCommand_cases h
  · exact hok
  · exact hok
  · exact exec_command_keeps hi hexec hok

/-- Settles O41: a reset cycle leaves a reset state; otherwise the receive sub-step keeps its parts, and the pop and
the command keep the transmitter's and leave the others. -/
theorem everyStepKeepsTheInvariant : Obligations.EveryStepKeepsTheInvariant := by
  intro s t hinv h
  obtain ⟨hrx, hres, htx⟩ := (inv_iff s).1 hinv
  obtain ⟨-, h⟩ | ⟨-, u, v, hu, hv, ht⟩ := step_cases h
  · cases h
    exact reset_inv _ _ _
  · obtain ⟨u', hu', hrxu, hresu⟩ := receive_keeps (s := beginCycle s.inputs.tail s) hrx hres
      (s.inputs.headD {}).rxValid (s.inputs.headD {}).rxLast (s.inputs.headD {}).rxData
    obtain rfl : u' = u := Host.Outcome.next.inj (hu'.symm.trans hu)
    have htxu : TransmitterOk u' := by rw [exec_receiver (decodeRx_part ..) hu]; exact htx
    obtain ⟨v', hv', htxv, -⟩ := pop_keeps htxu (s.inputs.headD {})
    obtain rfl : v' = v := Host.Outcome.next.inj (hv'.symm.trans hv)
    refine (inv_iff t).2 ⟨?_, ?_, runCommand_keeps ht htxv⟩ <;> rw [subSteps_frame hv ht]
    · exact hrxu
    · exact hresu

/-! ### Progress (60_exceptions.md R282) -/

theorem stagedWritten_eq_false_iff (s : State) (n : Nat) :
    stagedWritten s n = false ↔ ∃ i : Nat, i < n ∧ s.txPlW.getLsbD i = false := by
  simp [← Bool.not_eq_true, stagedWritten_iff]

/-- A host command answers, or is a TX_START of a payload with a byte never written. -/
theorem exec_command_answers {i : Instr} (hi : isCommand i = true) (s : State) :
    (∃ t, exec i s = .next t) ∨ (exec i s = .fault .unwrittenPayload ∧
      ∃ ch ty n, i = .txStart ch ty n ∧ n.toNat ≤ 250 ∧ stagedWritten s n.toNat = false) := by
  cases i <;> simp only [isCommand, Bool.false_eq_true] at hi
  case txStart ch ty n =>
    obtain h | h | ⟨-, -, h⟩ | ⟨hn, hw, h⟩ := execTxStart_cases ch ty n s
    · exact .inl ⟨_, h⟩
    · exact .inl ⟨_, h⟩
    · exact .inl ⟨_, h⟩
    · exact .inr ⟨h, ch, ty, n, rfl, hn, hw⟩
  all_goals exact .inl ⟨_, rfl⟩

/-- The host command sub-step answers, but for such a TX_START. -/
theorem runCommand_answers (c : CycleInput) (s : State) :
    (∃ t, runCommand c s = .next t) ∨ (runCommand c s = .fault .unwrittenPayload ∧ c.cmdValid = true ∧
      ∃ ch ty n, decodeCommand c.cmd = .ok (.txStart ch ty n) ∧ n.toNat ≤ 250 ∧ stagedWritten s n.toNat = false) := by
  rw [runCommand_eq]
  cases c.cmdValid with
  | false => exact .inl ⟨s, rfl⟩
  | true =>
    cases hd : decodeCommand c.cmd with
    | error e => exact .inl ⟨_, rfl⟩
    | ok i =>
      obtain hnext | ⟨hfault, ch, ty, n, rfl, hn, hw⟩ := exec_command_answers (decodeCommand_isCommand hd) s
      · exact .inl hnext
      · exact .inr ⟨hfault, rfl, ch, ty, n, rfl, hn, hw⟩

/-- Settles O43: reset, the receive sub-step and the pop answer; the command answers but for the one fault, whose ghost
bit is that of the cycle's start. -/
theorem onlyAnUnwrittenPayloadStopsTheMachine : Obligations.OnlyAnUnwrittenPayloadStopsTheMachine := by
  intro s hinv
  obtain ⟨hrx, hres, htx⟩ := (inv_iff s).1 hinv
  rw [step_eq]
  cases hr : (s.inputs.headD {}).rst with
  | true => exact .inl ⟨_, (runCycle_rst hr _).trans (exec_reset _)⟩
  | false =>
    obtain ⟨u, hu, -, -⟩ := receive_keeps (s := beginCycle s.inputs.tail s) hrx hres
      (s.inputs.headD {}).rxValid (s.inputs.headD {}).rxLast (s.inputs.headD {}).rxData
    have hframe := exec_receiver (decodeRx_part ..) hu
    have htxu : TransmitterOk u := by rw [hframe]; exact htx
    obtain ⟨v, hv, -, hpop⟩ := pop_keeps htxu (s.inputs.headD {})
    rw [runCycle_noRst hr, runSubSteps_eq, hu, andThen_next, hv, andThen_next]
    refine (runCommand_answers _ v).imp id fun ⟨hfault, hvalid, ch, ty, n, hd, hn, hw⟩ => ⟨hfault, ?_⟩
    obtain ⟨i, hi, hghost⟩ := (stagedWritten_eq_false_iff v n.toNat).1 hw
    rw [hpop, hframe] at hghost
    cases hin : s.inputs with
    | nil => rw [hin] at hvalid; cases hvalid
    | cons c rest =>
      rw [hin] at hvalid hd hr
      exact ⟨c, rest, ch, ty, n, rfl, hr, hvalid, hd, hn, i, hi, hghost⟩

/-- Under the invariant a SCAN candidate always has room in the buffer. -/
theorem rxCnt_lt_of_scan {s : State} (h : ReceiverOk s) (hsrc : s.params.rxSource = .scan) : s.rxCnt < 257 := by
  obtain ⟨-, hrx⟩ := h
  have hscan := (rxInv_scan hsrc).1 hrx
  cases hst : s.rxState with
  | hunt => obtain ⟨hcnt, -⟩ := (scanInv_hunt hst).1 hscan; omega
  | gotStart => obtain ⟨hcnt, -⟩ := (scanInv_gotStart hst).1 hscan; omega
  | collect => exact rxCnt_lt_of_collect hst hscan

/-- The only receive operation that can form an index outside rx_buf is the collection, past the buffer. -/
theorem receiver_bufferIndex {i : Instr} {s : State} (hi : instrPart i = .receiver) (h : exec i s = .fault .bufferIndex) :
    257 ≤ s.rxCnt ∧ ∃ l b, i = .rxScanCollect l b := by
  have hcomplete : ∀ w, complete w ≠ .fault .bufferIndex := fun w hw => by
    obtain ⟨t, ht⟩ := complete_next w
    cases ht.symm.trans hw
  cases i <;> simp only [instrPart, reduceCtorEq] at hi
  case rxScanHunt l b =>
    by_cases hb : b = Config.delim
    · subst hb; cases (execRxScanHunt_delim l s).symm.trans h
    · cases (execRxScanHunt_other hb l s).symm.trans h
  case rxScanResync l => cases h
  case rxScanLength l b =>
    by_cases hb : b = 0x00#8
    · subst hb; cases (exec_rxScanLength_zero l s).symm.trans h
    · cases (exec_rxScanLength_nonzero hb l s).symm.trans h
  case rxScanCollect l b =>
    refine ⟨?_, l, b, rfl⟩
    by_contra hin
    by_cases hn : s.rxNeed = 1#8
    · exact hcomplete _ ((exec_rxScanCollect_last (by omega) hn l b).symm.trans h)
    · cases (exec_rxScanCollect_more (by omega) hn l b).symm.trans h
  case rxSpan l b =>
    cases l with
    | true => exact absurd h (hcomplete _)
    | false => cases h
  case rxIdle l b => cases h

/-- Every dispatch operation answers. -/
theorem exec_dispatcher_next {i : Instr} (hi : instrPart i = .dispatcher) (s : State) : ∃ t, exec i s = .next t := by
  obtain ⟨v, k, rfl⟩ | ⟨ty, rfl⟩ := dispatcher_cases hi
  · exact ⟨_, (exec_instr v k s).trans (runVariant_eq v k s)⟩
  · exact ⟨_, execUnknownType_eq ty s⟩

/-- Settles O18: the two faults by their equations; under the invariant by the kind of the operation. -/
theorem indexOutsideABufferStopsTheMachine : Obligations.IndexOutsideABufferStopsTheMachine := by
  refine fun s => ⟨fun hout hbusy => exec_txPop_outside hbusy hout, fun l b hout => exec_rxScanCollect_outside hout l b,
    fun hinv i h => ?_⟩
  obtain ⟨hrx, -, htx⟩ := (inv_iff s).1 hinv
  obtain hk | hk | hk | rfl | rfl := instr_kinds i
  · obtain ⟨hout, hi⟩ := receiver_bufferIndex hk h
    cases hsrc : s.params.rxSource with
    | scan => have := rxCnt_lt_of_scan hrx hsrc; omega
    | span => exact ⟨rfl, hi⟩
  · obtain ⟨t, ht⟩ := exec_dispatcher_next hk s
    cases ht.symm.trans h
  · obtain ⟨t, ht⟩ | ⟨hfault, -⟩ := exec_command_answers hk s
    · cases ht.symm.trans h
    · cases hfault.symm.trans h
  · obtain ⟨v, hv, -⟩ := pop_keeps htx { txReady := true }
    cases hv.symm.trans h
  · cases h

/-! ### The scanner's candidates (41_frame_rx.md R148) -/

/-- A candidate of as many bytes as its length byte says never fails the length check. -/
theorem complete_frmErr_ne_lengthError {w t : State} (h : complete w = .next t)
    (hcnt : w.rxCnt = (w.rxBuf.read 1).toNat + 2) : t.frmErr ≠ .lengthError := by
  obtain ⟨t', ht', herr⟩ := complete_frmErr w
  obtain rfl : t' = t := Host.Outcome.next.inj (ht'.symm.trans h)
  rw [herr]
  unfold frameCheck
  have hlen : ¬ (w.rxBuf.read 1).toNat ≠ w.rxCnt - 2 := by omega
  rw [if_neg hlen]
  split
  · exact ErrCode.noConfusion
  · dsimp only
    split <;> exact ErrCode.noConfusion

/-- Settles O44: the receive sub-step that emitted `ev_frame` completed a candidate, and in SCAN mode one of the length
its length byte says. -/
theorem scannerNeverReportsLengthError : Obligations.ScannerNeverReportsLengthError := by
  intro s t hinv hsrc h hev
  obtain ⟨hrx, -, -⟩ := (inv_iff s).1 hinv
  obtain ⟨-, h⟩ | ⟨-, u, v, hu, hv, ht⟩ := step_cases h
  · cases h; cases hev
  · have hsub := subSteps_frame hv ht
    obtain ⟨u', hu', -, hframe⟩ | ⟨w, hw, -, -, hcnt, -⟩ := receivesWell (s := beginCycle s.inputs.tail s) hrx
        (s.inputs.headD {}).rxValid (s.inputs.headD {}).rxLast (s.inputs.headD {}).rxData
    · obtain rfl : u' = u := Host.Outcome.next.inj (hu'.symm.trans hu)
      rw [hsub, hframe] at hev
      cases hev
    · replace hcnt := hcnt hsrc
      have hdone : complete w = .next u := hw.symm.trans hu
      obtain ⟨u', hu', hframe, -⟩ := complete_spec w
      obtain rfl : u' = u := Host.Outcome.next.inj (hu'.symm.trans hdone)
      have herr := complete_frmErr_ne_lengthError hdone hcnt
      rw [hsub]
      refine ⟨herr, ?_⟩
      change u'.frmCnt = (u'.rxBuf.read 1).toNat + 2
      rw [hframe]
      exact hcnt

end Sys2Proof.Machine
end

section
/-! Unspecified buffer bytes never matter (70_reset_and_hazards.md R310; 93_implementation_defined.md I1, I3): each
sub-step reads only specified bytes, so it keeps the agreement of two states on them. -/

namespace Sys2Proof.Machine

theorem SameDefined.refl (s : State) : SameDefined s s :=
  ⟨rfl, fun _ _ => rfl, fun _ _ => rfl, fun _ _ => rfl, fun _ _ => rfl, fun _ _ => rfl⟩

/-- Sub-steps in a row: the second runs on states that agree. -/
theorem sameAnswer_andThen {r r' : Result} {f g : State → Result} (h : SameAnswer r r')
    (hfg : ∀ s t, SameDefined s t → SameAnswer (f s) (g t)) : SameAnswer (andThen r f) (andThen r' g) := by
  cases r with
  | next s =>
    cases r' with
    | next t => exact hfg s t h
    | _ => exact h.elim
  | fault e =>
    cases r' with
    | fault e' => exact h
    | _ => exact h.elim
  | refused e =>
    cases r' with
    | refused e' => exact h
    | _ => exact h.elim

/-! ### Dispatch -/

/-- A matched StatusUpdate has 31 specified payload bytes, and a snapshot has 31 where there is one. -/
theorem statusUnpack_same {s t : State} (h : SameDefined s t) (hlen : s.frmPlen = 31) :
    SameDefined (statusUnpack (statusPayload s) s) (statusUnpack (statusPayload t) t) := by
  have hpay : statusPayload t = statusPayload s :=
    Memory.readSlice_congr fun j _ hj => (h.frmPayload j (by rw [hlen]; omega)).symm
  have hvalid : t.stValid = s.stValid := by rw [h.others]
  have hdiff : snapshotDiffers (statusPayload s) t = snapshotDiffers (statusPayload s) s := by
    unfold snapshotDiffers
    rw [hvalid]
    cases hv : s.stValid with
    | false => rfl
    | true => rw [Memory.readSlice_congr fun j _ hj => h.stSnap j ⟨hv, by omega⟩]
  rw [hpay, statusUnpack_eq, statusUnpack_eq, hdiff]
  have hsnap : ∀ i : Nat, i < 31 →
      (if snapshotDiffers (statusPayload s) s then s.stSnap.writeSlice 0 (statusPayload s) else s.stSnap).read i =
      (if snapshotDiffers (statusPayload s) s then t.stSnap.writeSlice 0 (statusPayload s) else t.stSnap).read i := by
    intro i hi
    cases hd : snapshotDiffers (statusPayload s) s with
    | true =>
      have hin : i < (statusPayload s).length := by rwa [length_statusPayload]
      exact (Memory.read_writeSlice_zero s.stSnap hin).trans (Memory.read_writeSlice_zero t.stSnap hin).symm
    | false => exact h.stSnap i ⟨stValid_of_not_snapshotDiffers hd, hi⟩
  exact ⟨by rw [h.others], h.rxBuf, h.frmPayload, fun i hi => hsnap i hi.2, h.txPl, h.txFrame⟩

theorem recordMatch_same {s t : State} (h : SameDefined s t) {v : Variant}
    (hsub : v = .settingsRequest → payloadSubVariant t = payloadSubVariant s) :
    SameDefined (recordMatch v s) (recordMatch v t) := by
  have hif : (if v = .settingsRequest then payloadSubVariant t else SubVariant.generic) =
      if v = .settingsRequest then payloadSubVariant s else .generic := by
    split
    · rename_i hv; exact hsub hv
    · rfl
  refine ⟨?_, h.rxBuf, h.frmPayload, h.stSnap, h.txPl, h.txFrame⟩
  unfold recordMatch
  rw [hif, h.others]

/-- The pins of a settings request leave its three code bytes specified. -/
theorem payloadSubVariant_same {s t : State} (h : SameDefined s t) (hlen : s.frmPlen = 3) :
    payloadSubVariant t = payloadSubVariant s := by
  have hparams : t.params = s.params := by rw [h.others]
  unfold payloadSubVariant
  rw [hparams, h.frmPayload 0 (by omega), h.frmPayload 1 (by omega), h.frmPayload 2 (by omega)]

theorem runVariant_same {s t : State} (h : SameDefined s t) {v : Variant} {k : Pins} (hk : k.wfFor v = true) :
    SameAnswer (runVariant v k s) (runVariant v k t) := by
  have hpins : checkPins k t = checkPins k s := by rw [h.others]; rfl
  by_cases hc : checkPins k s = .none
  · obtain ⟨hlen, -⟩ := checkPins_none.1 hc
    rw [runVariant_of_match v hc, runVariant_of_match v (hpins.trans hc)]
    have hrec : SameDefined (recordMatch v s) (recordMatch v t) := recordMatch_same h fun hv => by
      subst hv
      exact payloadSubVariant_same h (hlen 3 (by simpa [Pins.wfFor] using hk))
    by_cases hv : v = .statusUpdate
    · subst hv
      have hlen31 : s.frmPlen = 31 := hlen 31 (by simp [Pins.wfFor] at hk; exact hk.1)
      exact statusUnpack_same hrec hlen31
    · simp only [if_neg hv]
      exact hrec
  · rw [runVariant_of_mismatch v rfl hc, runVariant_of_mismatch v hpins hc]
    exact { h with others := by rw [h.others] }

theorem dispatch_same {s t : State} (h : SameDefined s t) (hadm : s.params.typeMap.Admissible) :
    SameAnswer (dispatch s) (dispatch t) := by
  have hentry : t.params.typeMap.entry t.frmType = s.params.typeMap.entry s.frmType := by rw [h.others]
  cases he : s.params.typeMap.entry s.frmType with
  | none =>
    rw [dispatch_unmapped he, dispatch_unmapped (hentry.trans he), execUnknownType_eq, execUnknownType_eq]
    exact { h with others := by rw [h.others] }
  | some e =>
    rw [dispatch_mapped he, dispatch_mapped (hentry.trans he)]
    exact runVariant_same h (hadm.pinned _ e he)

/-! ### The receive sub-step -/

theorem rearm_same {s t : State} (h : SameDefined s t) : SameDefined (rearm s) (rearm t) :=
  ⟨by rw [h.others]; rfl, fun _ hi => absurd hi.1 (Nat.not_lt_zero _), h.frmPayload, h.stSnap, h.txPl, h.txFrame⟩

theorem latchFrame_same {s t : State} (h : SameDefined s t) (f : GoodFrame) :
    SameDefined (latchFrame f (countCandidate s)) (latchFrame f (countCandidate t)) :=
  ⟨by rw [h.others]; rfl, h.rxBuf, fun i (hi : i < f.payload.length) =>
    (Memory.read_writeSlice_zero s.frmPayload hi).trans (Memory.read_writeSlice_zero t.frmPayload hi).symm,
    h.stSnap, h.txPl, h.txFrame⟩

/-- A completion reads the candidate's bytes, and then those of the frame it latched. -/
theorem complete_same {s t : State} (h : SameDefined s t) (hadm : s.params.typeMap.Admissible) :
    SameAnswer (complete s) (complete t) := by
  have hcheck : frameCheck t.rxCnt t.rxBuf t.rxLastb = frameCheck s.rxCnt s.rxBuf s.rxLastb := by
    have hcnt : t.rxCnt = s.rxCnt := by rw [h.others]
    have hlast : t.rxLastb = s.rxLastb := by rw [h.others]
    rw [hcnt, hlast]
    exact (frameCheck_congr fun i hi hin => h.rxBuf i ⟨hi, hin⟩).symm
  cases hc : frameCheck s.rxCnt s.rxBuf s.rxLastb with
  | framingError =>
    rw [complete_framingError hc, complete_framingError (hcheck.trans hc)]
    exact rearm_same { h with others := by rw [h.others]; rfl }
  | lengthError =>
    rw [complete_lengthError hc, complete_lengthError (hcheck.trans hc)]
    exact rearm_same { h with others := by rw [h.others]; rfl }
  | checksumError crcRx crcCalc =>
    rw [complete_checksumError hc, complete_checksumError (hcheck.trans hc)]
    exact rearm_same { h with others := by rw [h.others]; rfl }
  | ok f =>
    have hlatch := latchFrame_same h f
    have hdisp := dispatch_same hlatch hadm
    obtain ⟨v, hv, -⟩ := dispatch_spec (latchFrame f (countCandidate s))
    obtain ⟨v', hv', -⟩ := dispatch_spec (latchFrame f (countCandidate t))
    rw [hv, hv'] at hdisp
    rw [complete_ok hc hv, complete_ok (hcheck.trans hc) hv']
    exact rearm_same hdisp

/-- A byte stored where the candidate ends is specified in both buffers, beside the bytes they agreed on. -/
theorem agreeOn_write {m m' : Memory} {n : Nat} (h : m.agreeOn m' (fun i => i < n ∧ i < 257)) (b : Byte) :
    (m.write n b).agreeOn (m'.write n b) (fun i => i < n + 1 ∧ i < 257) := by
  intro i hi
  rw [Memory.read_write, Memory.read_write]
  by_cases hn : i = n
  · rw [if_pos hn, if_pos hn]
  · rw [if_neg hn, if_neg hn]
    exact h i ⟨by omega, hi.2⟩

theorem takeSpanByte_same {s t : State} (h : SameDefined s t) (b : Byte) :
    SameDefined (takeSpanByte b s) (takeSpanByte b t) := by
  have hcnt : t.rxCnt = s.rxCnt := by rw [h.others]
  have hbuf : (takeSpanByte b s).rxBuf.agreeOn (takeSpanByte b t).rxBuf
      (fun i => i < min (s.rxCnt + 1) 258 ∧ i < 257) := by
    obtain hin | hfull := Nat.lt_or_ge s.rxCnt 257
    · rw [takeSpanByte_rxBuf_inside hin, takeSpanByte_rxBuf_inside (hcnt.trans_lt hin), hcnt]
      exact fun i hi => agreeOn_write h.rxBuf b i ⟨by omega, hi.2⟩
    · rw [takeSpanByte_rxBuf_full hfull, takeSpanByte_rxBuf_full (hfull.trans_eq hcnt.symm)]
      exact fun i hi => h.rxBuf i ⟨by omega, hi.2⟩
  exact { h with others := by rw [h.others]; rfl, rxBuf := hbuf }

theorem exec_rxScanHunt_same {s t : State} (h : SameDefined s t) (l : Bool) (b : Byte) :
    SameAnswer (exec (.rxScanHunt l b) s) (exec (.rxScanHunt l b) t) := by
  rw [exec_rxScanHunt, exec_rxScanHunt]
  by_cases hb : b = Config.delim
  · subst hb
    rw [execRxScanHunt_delim, execRxScanHunt_delim]
    refine ⟨by rw [h.others], fun i hi => ?_, h.frmPayload, h.stSnap, h.txPl, h.txFrame⟩
    obtain rfl : i = 0 := Nat.lt_one_iff.1 hi.1
    exact (Memory.read_write_same s.rxBuf 0 Config.delim).trans (Memory.read_write_same t.rxBuf 0 Config.delim).symm
  · rw [execRxScanHunt_other hb, execRxScanHunt_other hb]
    exact h

/-- The length byte stands after the one byte that GOT_START holds. -/
theorem exec_rxScanLength_same {s t : State} (h : SameDefined s t) (hadm : s.params.typeMap.Admissible)
    (hcnt : s.rxCnt = 1) (l : Bool) (b : Byte) :
    SameAnswer (exec (.rxScanLength l b) s) (exec (.rxScanLength l b) t) := by
  have hbuf : (s.rxBuf.write 1 b).agreeOn (t.rxBuf.write 1 b) (fun i => i < 2 ∧ i < 257) :=
    agreeOn_write (n := 1) (by simpa only [hcnt] using h.rxBuf) b
  by_cases hb : b = 0x00#8
  · subst hb
    have hs := execRxScanLength_complete l s
    have ht := execRxScanLength_complete l t
    exact (congrArg₂ SameAnswer hs ht).mpr (complete_same
      { h with others := by rw [h.others], rxBuf := hbuf } hadm)
  · rw [exec_rxScanLength_nonzero hb, exec_rxScanLength_nonzero hb]
    exact { h with others := by rw [h.others], rxBuf := hbuf }

theorem exec_rxScanCollect_same {s t : State} (h : SameDefined s t) (hadm : s.params.typeMap.Admissible)
    (l : Bool) (b : Byte) : SameAnswer (exec (.rxScanCollect l b) s) (exec (.rxScanCollect l b) t) := by
  have hcnt : t.rxCnt = s.rxCnt := by rw [h.others]
  have hneed : t.rxNeed = s.rxNeed := by rw [h.others]
  have hbuf : (s.rxBuf.write s.rxCnt b).agreeOn (t.rxBuf.write t.rxCnt b) (fun i => i < s.rxCnt + 1 ∧ i < 257) := by
    rw [hcnt]; exact agreeOn_write h.rxBuf b
  obtain hin | hout := Nat.lt_or_ge s.rxCnt 257
  · by_cases hn : s.rxNeed = 1#8
    · rw [exec_rxScanCollect_last hin hn, exec_rxScanCollect_last (hcnt.trans_lt hin) (hneed.trans hn)]
      exact complete_same { h with others := by rw [h.others], rxBuf := hbuf } hadm
    · rw [exec_rxScanCollect_more hin hn, exec_rxScanCollect_more (hcnt.trans_lt hin) (hneed ▸ hn)]
      exact { h with others := by rw [h.others], rxBuf := hbuf }
  · rw [exec_rxScanCollect_outside hout, exec_rxScanCollect_outside (hout.trans_eq hcnt.symm)]
    exact rfl

/-- The receive sub-step, under the receiver's part of the invariant. -/
theorem receive_same {s t : State} (h : SameDefined s t) (hok : ReceiverOk s) (hadm : s.params.typeMap.Admissible)
    (v l : Bool) (b : Byte) :
    SameAnswer (exec (decodeRx s.params.rxSource s.rxState (rxWord v l b)) s)
      (exec (decodeRx t.params.rxSource t.rxState (rxWord v l b)) t) := by
  have hctx : decodeRx t.params.rxSource t.rxState (rxWord v l b) = decodeRx s.params.rxSource s.rxState (rxWord v l b) := by
    rw [h.others]
  rw [hctx]
  cases v with
  | false => rw [decodeRx_idle]; exact h
  | true =>
    rw [decodeRx_byte]
    cases hsrc : s.params.rxSource with
    | span =>
      cases l with
      | true => exact complete_same (takeSpanByte_same h b) hadm
      | false => exact takeSpanByte_same h b
    | scan =>
      cases hst : s.rxState with
      | hunt => exact exec_rxScanHunt_same h l b
      | collect => exact exec_rxScanCollect_same h hadm l b
      | gotStart =>
        obtain ⟨-, hrx⟩ := hok
        obtain ⟨hcnt, -⟩ := (scanInv_gotStart hst).1 ((rxInv_scan hsrc).1 hrx)
        by_cases hb : b = Config.delim
        · simp only [decodeScan, if_pos hb]; exact h
        · simp only [decodeScan, if_neg hb]; exact exec_rxScanLength_same h hadm hcnt l b

/-! ### The pop and the host command -/

theorem sendByte_same {s t : State} (h : SameDefined s t) (hbusy : s.txIdx < s.txLen) :
    SameDefined (sendByte s) (sendByte t) := by
  have hbyte : t.txFrame.read t.txIdx = s.txFrame.read s.txIdx := by
    have hidx : t.txIdx = s.txIdx := by rw [h.others]
    rw [hidx]; exact (h.txFrame _ hbusy).symm
  refine ⟨?_, h.rxBuf, h.frmPayload, h.stSnap, h.txPl, h.txFrame⟩
  unfold sendByte
  rw [hbyte, h.others]

/-- The pop sends a byte of the loaded frame. -/
theorem exec_txPop_same {s t : State} (h : SameDefined s t) : SameAnswer (exec .txPop s) (exec .txPop t) := by
  have hidx : t.txIdx = s.txIdx := by rw [h.others]
  have hlen : t.txLen = s.txLen := by rw [h.others]
  by_cases hbusy : s.txIdx < s.txLen
  · have hbusy' : t.txIdx < t.txLen := by rwa [hidx, hlen]
    obtain hin | hout := Nat.lt_or_ge s.txIdx 257
    · rw [exec_txPop_busy hbusy hin, exec_txPop_busy hbusy' (hidx.trans_lt hin)]
      exact sendByte_same h hbusy
    · rw [exec_txPop_outside hbusy hout, exec_txPop_outside hbusy' (hout.trans_eq hidx.symm)]
      exact rfl
  · rw [exec_txPop_idle hbusy, exec_txPop_idle (by rwa [hidx, hlen])]
    exact h

theorem pop_same {s t : State} (h : SameDefined s t) (c : CycleInput) :
    SameAnswer (if c.txReady then exec .txPop s else .next s) (if c.txReady then exec .txPop t else .next t) := by
  cases c.txReady with
  | true => exact exec_txPop_same h
  | false => exact h

/-- A staging write specifies one byte more, the same in both. -/
theorem exec_txWrite_same {s t : State} (h : SameDefined s t) (i b : Byte) :
    SameAnswer (exec (.txWrite i b) s) (exec (.txWrite i b) t) := by
  rw [exec_txWrite, exec_txWrite]
  refine ⟨by rw [h.others], h.rxBuf, h.frmPayload, h.stSnap, fun j hj => ?_, h.txFrame⟩
  replace hj : (s.txPlW ||| (1#256 <<< i.toNat)).getLsbD j = true := hj
  rw [execTxWrite_ghost] at hj
  change (s.txPl.write i.toNat b).read j = (t.txPl.write i.toNat b).read j
  rw [Memory.read_write, Memory.read_write]
  by_cases hji : j = i.toNat
  · rw [if_pos hji, if_pos hji]
  · rw [if_neg hji, if_neg hji]
    exact h.txPl j (by simpa [hji] using hj)

theorem loadFrame_same {s t : State} (h : SameDefined s t) (f : List Byte) :
    SameDefined (loadFrame f s) (loadFrame f t) :=
  ⟨by rw [h.others]; rfl, h.rxBuf, h.frmPayload, h.stSnap, h.txPl, fun i (hi : i < f.length) =>
    (Memory.read_writeSlice_zero s.txFrame hi).trans (Memory.read_writeSlice_zero t.txFrame hi).symm⟩

theorem raiseError_same {s t : State} (h : SameDefined s t) (e : ErrCode) :
    SameDefined (raiseError e s) (raiseError e t) := by
  cases e <;> exact { h with others := by rw [h.others]; rfl }

/-- A start reads the staged bytes only where all of them have been written. -/
theorem exec_txStart_same {s t : State} (h : SameDefined s t) (ch ty n : Byte) :
    SameAnswer (exec (.txStart ch ty n) s) (exec (.txStart ch ty n) t) := by
  have hidx : t.txIdx = s.txIdx := by rw [h.others]
  have hlen : t.txLen = s.txLen := by rw [h.others]
  by_cases hbusy : s.txIdx < s.txLen
  · rw [exec_txStart_busy hbusy, exec_txStart_busy (s := t) (by rwa [hidx, hlen])]
    exact raiseError_same h .txBusy
  · have hidle : ¬ t.txIdx < t.txLen := by rwa [hidx, hlen]
    obtain hn | hn := Nat.lt_or_ge 250 n.toNat
    · rw [exec_txStart_overflow hbusy hn, exec_txStart_overflow hidle hn]
      exact raiseError_same h .encodeOverflow
    · have hwritten : stagedWritten t n.toNat = stagedWritten s n.toNat := by rw [h.others]; rfl
      rw [exec_txStart_idle hbusy hn, exec_txStart_idle hidle hn, hwritten]
      cases hw : stagedWritten s n.toNat with
      | false => exact rfl
      | true =>
        have hpl : stagedPayload t n.toNat = stagedPayload s n.toNat :=
          Memory.readSlice_congr fun j _ hj =>
            (h.txPl j ((stagedWritten_iff s n.toNat).1 hw j (by omega))).symm
        rw [hpl]
        exact loadFrame_same h _

theorem exec_command_same {i : Instr} (hi : isCommand i = true) {s t : State} (h : SameDefined s t) :
    SameAnswer (exec i s) (exec i t) := by
  cases i <;> simp only [isCommand, Bool.false_eq_true] at hi
  case nop => exact h
  case txWrite j b => exact exec_txWrite_same h j b
  case txStart ch ty n => exact exec_txStart_same h ch ty n
  case illegalOp67 low => exact raiseError_same h .illegalCommand
  case illegalOp8F low => exact raiseError_same h .illegalCommand
  case crcInit => exact { h with others := by rw [h.others] }
  case crcUpdate b =>
    have hreg : t.crcReg = s.crcReg := by rw [h.others]
    rw [exec_crcUpdate, exec_crcUpdate, hreg]
    exact { h with others := by rw [h.others] }
  case cfgWrite cap pumps => exact { h with others := by rw [h.others] }

theorem runCommand_same {s t : State} (h : SameDefined s t) (c : CycleInput) :
    SameAnswer (runCommand c s) (runCommand c t) := by
  rw [runCommand_eq, runCommand_eq]
  cases c.cmdValid with
  | false => exact h
  | true =>
    cases hd : decodeCommand c.cmd with
    | error e => exact raiseError_same h .illegalCommand
    | ok i => exact exec_command_same (decodeCommand_isCommand hd) h

/-! ### The cycle -/

theorem beginCycle_same {s t : State} (h : SameDefined s t) (rest : List CycleInput) :
    SameDefined (beginCycle rest s) (beginCycle rest t) :=
  { h with others := by rw [h.others]; rfl }

/-- RESET keeps nothing of the buffers. -/
theorem exec_reset_same {s t : State} (h : SameDefined s t) : SameAnswer (exec .reset s) (exec .reset t) := by
  have hreset : exec .reset t = exec .reset s := by rw [exec_reset, exec_reset, h.others]
  rw [hreset]
  exact SameDefined.refl _

/-- Settles O49: the cycle's sub-steps in a row, each on two states that agree on the specified bytes. -/
theorem unspecifiedBytesNeverMatter : Obligations.UnspecifiedBytesNeverMatter := by
  intro s t hinv hadm h
  obtain ⟨hrx, -, -⟩ := (inv_iff s).1 hinv
  have hin : t.inputs = s.inputs := by rw [h.others]
  have hbegin := beginCycle_same h s.inputs.tail
  rw [step_eq, step_eq, hin]
  cases hr : (s.inputs.headD {}).rst with
  | true => rw [runCycle_rst hr, runCycle_rst hr]; exact exec_reset_same hbegin
  | false =>
    rw [runCycle_noRst hr, runCycle_noRst hr, runSubSteps_eq, runSubSteps_eq]
    exact sameAnswer_andThen (receive_same hbegin hrx hadm _ _ _) fun u u' hu =>
      sameAnswer_andThen (pop_same hu _) fun v v' hv => runCommand_same hv _

end Sys2Proof.Machine
end
